-- ==== Sys2Proof/Word.lean ====
section
/-! DEFINITION. The word types whose width the spec fixes (R2, R11, R14, R49) and the one width function
the register widths need (R11, R21). Every other width is a build parameter: Config.lean. -/

namespace Sys2Proof

/-- The 17 monitored lines as one vector, `P[16:0]` (R49). -/
abbrev Lines := BitVec 17

/-- The 8 data lines, `P[7:0]` (R49, R51). -/
abbrev DataByte := BitVec 8

/-- The 9 control/status lines, `P[16:8]` (R49, R50). -/
abbrev SignalBits := BitVec 9

/-- `ceil(log2 n)`, the number of bits that hold the integers `0 .. n - 1` (R21); 0 for `n` at most 1. -/
def ceilLog2 (n : Nat) : Nat :=
  if n ≤ 1 then 0 else Nat.log2 (n - 1) + 1

end Sys2Proof
end

