-- ==== Sys2Proof/Machine/Gray.lean ====
section
/-! DEFINITION. Pointer increment and the Gray code of the clock-domain crossing (R71 to R73). -/

namespace Sys2Proof.Machine

/-- `inc(p) = (p + 1) mod RING_N`: wrap-around addition in the pointer's width (R71). -/
def inc {w : Nat} (p : BitVec w) : BitVec w := p + 1#w

/-- `bin2gray(b) = b xor (b >> 1)` (R72). -/
def bin2gray {w : Nat} (b : BitVec w) : BitVec w := b ^^^ (b >>> 1)

/-- The exclusive-or of `g >> k` for `k < n`: bit `i` is the exclusive-or of the bits `i .. i + n - 1`
of `g`. -/
def xorShifts {w : Nat} (g : BitVec w) : Nat → BitVec w
  | 0 => 0#w
  | n + 1 => xorShifts g n ^^^ (g >>> n)

/-- `gray2bin(g)`: bit `i` is the exclusive-or of `g[W-1:i]` (R73). -/
def gray2bin {w : Nat} (g : BitVec w) : BitVec w := xorShifts g w

/-- `sat_W(x) = min(x, 2^W - 1)`, as a `W`-bit value (R14). -/
def sat (w x : Nat) : BitVec w := BitVec.ofNat w (min x (2 ^ w - 1))

end Sys2Proof.Machine
end

