-- ==== Sys2Proof/Config.lean ====
section
/-! DEFINITION. What a build fixes (the five OPEN parameters of 00_scope.md, R6 to R10), what the
environment chooses at a step (the draws of R18, R39, R82 and R118) and the free values: opaque
constants that no proof can look into. -/

namespace Sys2Proof

/-- The build parameters (R6 to R10). They never change while the block runs (R12). Which values are
admitted is `Params.valid` of WellFormed.lean. -/
structure Params where
  /-- `RING_N`, the ring capacity in slots (R6). -/
  ringN : Nat
  /-- `DEADBAND_US`, the deadband window in microseconds (R7). -/
  deadbandUs : Nat
  /-- `TS_W`, the timestamp width in bits (R8). -/
  tsW : Nat
  /-- `TICKS_PER_US`, capture edges per microsecond (R9). -/
  ticksPerUs : Nat
  /-- `DROP_W`, the drop counter's width in bits (R10). -/
  dropW : Nat
deriving DecidableEq, Repr, Inhabited

/-- `A = log2(RING_N)`, the width of every ring pointer (R11). -/
def Params.ptrW (c : Params) : Nat := Nat.log2 c.ringN

/-- `FW = TS_W + 17`, the width of a frame word (R11, R53). -/
def Params.frameW (c : Params) : Nat := c.tsW + 17

/-- The width of `PRESC`, `ceil(log2(TICKS_PER_US))` (R21). -/
def Params.prescW (c : Params) : Nat := ceilLog2 c.ticksPerUs

/-- `CFG_A` of 95_test_vectors.md: an example configuration, not the repository's values (D3). -/
def Config.cfgA : Params :=
  { ringN := 4, deadbandUs := 3, tsW := 32, ticksPerUs := 1, dropW := 32 }

/-- `CFG_B` of 95_test_vectors.md: the tiny example configuration. -/
def Config.cfgB : Params :=
  { ringN := 2, deadbandUs := 3, tsW := 4, ticksPerUs := 1, dropW := 2 }

/-- The level of `RST` as the two domains see it. The block has one `RST` that reaches both together
(R17, R118, D20); a reset of one domain alone is not part of it (R121, U7), and the two last values
are there so that the model can refuse it. -/
inductive RstLine where
  | released
  | both
  | captureOnly
  | drainOnly
deriving DecidableEq, Repr, Inhabited

/-- Which clock has its rising edge in a step (R16, R39). -/
inductive Clock where
  | capture
  | drain
deriving DecidableEq, Repr, Inhabited

/-- Everything the environment chooses for one step: the input ports (R17, R18), which clock has its
edge (R39), the outcome of each synchronizer's first stage (R82) and the sampling registers' values
at a reset (R118). A step reads the draws its operation names and ignores the others. -/
structure Drive where
  /-- `RST` (R17, R55). -/
  rst : RstLine
  /-- The clock whose edge this step is; not read when `RST` is asserted. -/
  clock : Clock
  /-- `PIN_DATA`, read at a capture edge. -/
  pinData : DataByte
  /-- `PIN_SIG`, read at a capture edge. -/
  pinSig : SignalBits
  /-- `OUT_READY`, read at a drain edge. -/
  outReady : Bool
  /-- The draw of `RG_S1`: true takes `RGRAY_PREV`, false takes `RGRAY` (R82). -/
  rgOld : Bool
  /-- The draw of `WG_S1`: true takes `WGRAY_PREV`, false takes `WGRAY` (R82). -/
  wgOld : Bool
  /-- The draw of `DG_S1`: true takes `DROP_GRAY_PREV`, false takes `DROP_GRAY` (R82). -/
  dgOld : Bool
  /-- What `IN_S1` holds after a reset (R118). -/
  resetS1 : Lines
  /-- What `IN_S2` holds after a reset (R118). -/
  resetS2 : Lines
  /-- What `IN_PREV` holds after a reset (R118). -/
  resetPrev : Lines
deriving DecidableEq, Repr, Inhabited

/-- The pin vector `P[16:0] = {PIN_SIG[8:0], PIN_DATA[7:0]}` (R17, R49). No line is inverted (R52). -/
def Drive.lines (d : Drive) : Lines := d.pinSig ++ d.pinData

/-- The environment's draw at the step of the given number, where the state does not list it: a free
value, "constrained by nothing else" (R14, R18, U5). Log entry 3. -/
opaque Config.environment : Nat → Drive

/-- What slot `i` of a `w`-bit slot array holds while nothing has written it: a free value (R30, U2).
Log entry 5. -/
opaque Config.unwrittenSlot (w i : Nat) : BitVec w

end Sys2Proof
end

