-- ==== Sys2Proof/Syntax.lean ====
section
/-! DEFINITION. The block's operations, one constructor per row of spec/opcode_table.json, and the three
select vectors that choose among them (30_encoding.md R55 to R57). The block has no instruction words
(R16): a select vector is computed from registers and draws before each step. -/

namespace Sys2Proof

/-- One operation. The operands are the bits of the select vector that its row ignores, in the row's
order and under the row's letters: `e` is `EDGE`, `p` is `PASS`, `f` is `FULL`, `r` is `OUT_READY`.
No meaning reads one of them; they are there so that a select vector can be recovered. -/
inductive Instr where
  /-- CAP_ARM, `CSEL = 0EPF` (R89). -/
  | capArm (e p f : Bool)
  /-- CAP_QUIET, `CSEL = 10PF` (R90). -/
  | capQuiet (p f : Bool)
  /-- CAP_REJECT, `CSEL = 110F` (R91). -/
  | capReject (f : Bool)
  /-- CAP_PUSH, `CSEL = 1110` (R92). -/
  | capPush
  /-- CAP_DROP, `CSEL = 1111` (R93). -/
  | capDrop
  /-- DRN_EMPTY, `DSEL = 0R` (R100). -/
  | drnEmpty (r : Bool)
  /-- DRN_HOLD, `DSEL = 10` (R101). -/
  | drnHold
  /-- DRN_POP, `DSEL = 11` (R102). -/
  | drnPop
  /-- RESET, `RSTSEL = 1` (R118). -/
  | reset
deriving DecidableEq, Repr

/-- The capture operations (R56). -/
def Instr.isCapture : Instr → Bool
  | .capArm _ _ _ => true
  | .capQuiet _ _ => true
  | .capReject _ => true
  | .capPush => true
  | .capDrop => true
  | .drnEmpty _ => false
  | .drnHold => false
  | .drnPop => false
  | .reset => false

/-- The drain operations (R57). -/
def Instr.isDrain : Instr → Bool
  | .capArm _ _ _ => false
  | .capQuiet _ _ => false
  | .capReject _ => false
  | .capPush => false
  | .capDrop => false
  | .drnEmpty _ => true
  | .drnHold => true
  | .drnPop => true
  | .reset => false

/-- The operations that accept an edge event (R67). -/
def Instr.accepts (i : Instr) : Bool := i == .capPush || i == .capDrop

/-- The three formats of a select vector (R55 to R57). -/
inductive Format where
  | csel
  | dsel
  | rstsel
deriving DecidableEq, Repr

/-- A select vector. -/
inductive SelectVec where
  /-- `CSEL[3:0] = {ARMED, EDGE, PASS, FULL}` (R56). -/
  | csel (v : BitVec 4)
  /-- `DSEL[1:0] = {OUT_VALID, OUT_READY}` (R57). -/
  | dsel (v : BitVec 2)
  /-- `RSTSEL = RST` (R55). -/
  | rstsel (v : BitVec 1)
deriving DecidableEq, Repr

/-- The format of a select vector. -/
def SelectVec.format : SelectVec → Format
  | .csel _ => .csel
  | .dsel _ => .dsel
  | .rstsel _ => .rstsel

/-- A select vector's bits as a number, bit 0 the least significant (R14). -/
def SelectVec.bits : SelectVec → Nat
  | .csel v => v.toNat
  | .dsel v => v.toNat
  | .rstsel v => v.toNat

end Sys2Proof
end

