-- ==== Sys2Proof/WellFormed.lean ====
section
/-! DEFINITION. Which builds the spec admits (R6 to R10, R107(a)) and which select vectors a block can
form (R58). -/

namespace Sys2Proof

/-- R6: `RING_N` is a power of two and at least 2. -/
def Params.ringOk (c : Params) : Bool :=
  decide (2 ≤ c.ringN) && decide (2 ^ c.ptrW = c.ringN)

/-- R7: `0 <= DEADBAND_US <= 2^TS_W - 2`. -/
def Params.deadbandOk (c : Params) : Bool := decide (c.deadbandUs + 2 ≤ 2 ^ c.tsW)

/-- R8: `1 <= TS_W <= 64`. -/
def Params.tsWOk (c : Params) : Bool := decide (1 ≤ c.tsW) && decide (c.tsW ≤ 64)

/-- R9: `TICKS_PER_US >= 1`. -/
def Params.ticksOk (c : Params) : Bool := decide (1 ≤ c.ticksPerUs)

/-- R10: `1 <= DROP_W <= 64`. -/
def Params.dropWOk (c : Params) : Bool := decide (1 ≤ c.dropW) && decide (c.dropW ≤ 64)

/-- The builds that have a meaning: every parameter in its range (R6 to R10). Any other is refused
(R107(a), U6). -/
def Params.valid (c : Params) : Bool :=
  c.ringOk && c.deadbandOk && c.tsWOk && c.ticksOk && c.dropWOk

/-- The operations whose select vector a block can form: all but CAP_ARM with `EDGE = 1`, since
`EDGE = 0` whenever `ARMED = 0`, so "`CSEL` values `01--` cannot occur" (R58). Decoding is total all
the same: those vectors decode as CAP_ARM. -/
def Instr.wf : Instr → Bool
  | .capArm e _ _ => !e
  | .capQuiet _ _ => true
  | .capReject _ => true
  | .capPush => true
  | .capDrop => true
  | .drnEmpty _ => true
  | .drnHold => true
  | .drnPop => true
  | .reset => true

end Sys2Proof
end

