-- ==== Sys2Proof/Machine/State.lean ====
section
/-! DEFINITION. The block's state (10_state.md), plain data, and its value after reset. Register names
are the spec's in lower camel case; a register that crosses a clock domain stands, with its
synchronizer and the spec's bookkeeping, in one `Crossing`. -/

namespace Sys2Proof.Machine

/-- One Gray-coded source register, the spec's model-only bookkeeping about it (R31) and the two-stage
synchronizer that carries it into the other domain (R82). -/
structure Crossing (w : Nat) where
  /-- The source register: `WGRAY` (R24), `RGRAY` (R27) or `DROP_GRAY` (R26). -/
  src : BitVec w
  /-- `<src>_PREV`: what the source held immediately before its most recent change (R31). -/
  prev : BitVec w
  /-- `<src>_CHG`: the source has changed since the first stage last sampled it (R31). -/
  chg : Bool
  /-- The synchronizer's first stage: `WG_S1` (R28), `RG_S1` (R25) or `DG_S1` (R29). -/
  s1 : BitVec w
  /-- The synchronizer's second stage: `WG_S2`, `RG_S2` or `DG_S2`. -/
  s2 : BitVec w
deriving DecidableEq, Repr

/-- A crossing after reset: every register and both pieces of bookkeeping 0 (R118). -/
def Crossing.reset (w : Nat) : Crossing w :=
  { src := 0#w, prev := 0#w, chg := false, s1 := 0#w, s2 := 0#w }

/-- The slot array (R30): (slot index, frame word), indices strictly rising. A slot that is not listed
has not been written since power-on and holds a free value (R30, U2; log entry 5). -/
abbrev Memory (w : Nat) := List (Nat × BitVec w)

/-- Every register of a block built with parameters `c` (10_state.md sections 3 to 6). -/
structure Regs (c : Params) where
  /-- `IN_S1`, first sampling stage (R19). -/
  inS1 : Lines
  /-- `IN_S2`, second sampling stage: the atomic snapshot (R19, R38). -/
  inS2 : Lines
  /-- `IN_PREV`, the previous snapshot (R19). -/
  inPrev : Lines
  /-- `ARM_CNT`, capture edges since reset, saturating at 3 (R20). -/
  armCnt : BitVec 2
  /-- `PRESC`, the microsecond prescaler (R21). -/
  presc : BitVec c.prescW
  /-- `TS`, elapsed microseconds since capture start (R22). -/
  ts : BitVec c.tsW
  /-- `LAST_T`, timestamp of the last accepted edge event (R23). -/
  lastT : BitVec c.tsW
  /-- `LAST_VALID`, set once an edge event has been accepted (R23). -/
  lastValid : Bool
  /-- `WPTR`, the slot the next frame is written to (R24). -/
  wptr : BitVec c.ptrW
  /-- `WGRAY` (capture domain) crossing into the drain domain: `WG_S1`, `WG_S2` (R24, R28). -/
  wg : Crossing c.ptrW
  /-- `DROP`, the number of dropped frames, saturating (R26). -/
  drop : BitVec c.dropW
  /-- `DROP_GRAY` (capture domain) crossing into the drain domain: `DG_S1`, `DG_S2` (R26, R29). -/
  dg : Crossing c.dropW
  /-- `RPTR`, the slot of the oldest unpopped frame (R27). -/
  rptr : BitVec c.ptrW
  /-- `RGRAY` (drain domain) crossing into the capture domain: `RG_S1`, `RG_S2` (R27, R25). -/
  rg : Crossing c.ptrW
  /-- `SLOT[0 .. RING_N - 1]` (R30). -/
  slots : Memory c.frameW
deriving DecidableEq, Repr

/-- The registers as RESET leaves them (R118), the sampling registers and the slots aside: those are
the arguments, since R118 draws the first and does not write the second. -/
def Regs.resetWith (c : Params) (inS1 inS2 inPrev : Lines) (slots : Memory c.frameW) : Regs c :=
  { inS1, inS2, inPrev, armCnt := 0, presc := 0, ts := 0, lastT := 0, lastValid := false
    wptr := 0, wg := Crossing.reset _, drop := 0, dg := Crossing.reset _
    rptr := 0, rg := Crossing.reset _, slots }

/-- The state of the machine: the build it is, its registers, and the model's own two fields that say
what the environment does (log entry 3). -/
structure State where
  /-- The build parameters; no step writes them (R12). -/
  cfg : Params
  /-- The block's registers. -/
  regs : Regs cfg
  /-- The model's own: the environment's draws for the coming steps, nearest first, so far as they are
  already fixed. Beyond them the draws are free values. -/
  stimulus : List Drive
  /-- The model's own: the number of steps taken, which indexes the free draws. -/
  drawn : Nat
deriving DecidableEq, Repr

/-- Reasons to stop with a fault: none. "No behaviour of the block is a `fault`"
(93_implementation_defined.md, section 2); every state has exactly one operation per edge (R107(c)). -/
inductive Fault where
deriving DecidableEq, Repr

/-- Reasons to give an operation no meaning. -/
inductive Refusal where
  /-- Raised by an arm of `exec` that has no meaning yet (no arm has this today). Safe: it stops. -/
  | notModelled (mnemonic : String)
  /-- Raised by every operation of a build whose parameters are outside R6 to R10: "the model gives
  such a block no meaning" (R107(a), U6). Safe: it stops. -/
  | unbuildable
  /-- Raised by `step` when `RST` reaches one domain only: "a model refuses it" (R121, U7).
  Safe: it stops. -/
  | partialReset
  /-- Raised by `step` on a select vector that names no operation; `step` never forms one
  (Laws/Step.lean, `decode_selectVec`). Safe: it stops. -/
  | noOperation
deriving DecidableEq, Repr

/-- A block of build `c` right after reset (R118): the sampling registers, which R118 draws, at 0
(DESIGN CHOICE, log entry 2), no slot listed (log entry 5) and no draw fixed (log entry 3). -/
def State.resetOf (c : Params) : State :=
  { cfg := c, regs := Regs.resetWith c 0 0 0 [], stimulus := [], drawn := 0 }

/-- The machine right after reset. The spec leaves the build parameters OPEN: its example `CFG_A`
stands here (DESIGN CHOICE, log entry 1); statements are about every `State.resetOf c`. -/
def State.reset : State := State.resetOf Config.cfgA

end Sys2Proof.Machine
end

