-- ==== Sys2Proof/Machine/Operands.lean ====
section
/-! DEFINITION. The line vector, the frame word and the encoder (30_encoding.md R49 to R54,
41_snapshot_encoder.md R61, R62). The block's operations have no operand fields of their own: what they
work on are these words. -/

namespace Sys2Proof.Machine

/-- The 9 control/status lines (R50). -/
inductive StatusLine where
  | strobe
  | ack
  | busy
  | autofeed
  | init
  | selectIn
  | paperOut
  | select
  | error
deriving DecidableEq, Repr

/-- The position of a status line among the 9 status bits, "a defined, stable order" (R50). -/
def StatusLine.index : StatusLine → Nat
  | .strobe => 0
  | .ack => 1
  | .busy => 2
  | .autofeed => 3
  | .init => 4
  | .selectIn => 5
  | .paperOut => 6
  | .select => 7
  | .error => 8

/-- The level of a status line in a line vector: status bit `k` is `P[8 + k]` (R49, R50, R52). -/
def statusLevel (p : Lines) (l : StatusLine) : Bool := p.getLsbD (8 + l.index)

/-- The level of data line `D<i>` in a line vector: `P[i]` (R51, R52). -/
def dataLevel (p : Lines) (i : Fin 8) : Bool := p.getLsbD i

/-- `Snapshot() = IN_S2[16:0]`, all 17 lines from one register (R61, R38). -/
def snapshot {c : Params} (r : Regs c) : Lines := r.inS2

/-- `Encode(t, s) = { t[TS_W-1:0], s[16:8], s[7:0] }` (R62, R53). -/
def encodeFrame {tsW : Nat} (t : BitVec tsW) (s : Lines) : BitVec (tsW + 17) := t ++ s

/-- `timestamp(f) = f[FW-1:17]` (R54). -/
def frameTimestamp {tsW : Nat} (f : BitVec (tsW + 17)) : BitVec tsW := f.extractLsb' 17 tsW

/-- `signal_bits(f) = f[16:8]` (R54). -/
def frameSignal {tsW : Nat} (f : BitVec (tsW + 17)) : SignalBits := f.extractLsb' 8 9

/-- `data_byte(f) = f[7:0]` (R54). -/
def frameData {tsW : Nat} (f : BitVec (tsW + 17)) : DataByte := f.extractLsb' 0 8

/-- `bit_k(f) = f[8 + k]` (R54). -/
def frameBit {tsW : Nat} (f : BitVec (tsW + 17)) (k : Nat) : Bool := f.getLsbD (8 + k)

end Sys2Proof.Machine
end

