-- ==== Sys2Proof/Machine/Flags.lean ====
section
/-! DEFINITION. The status signals: combinational functions of the registers, with no state of their own
(R32). -/

namespace Sys2Proof.Machine

/-- `ARMED = (ARM_CNT == 3)` (R85). -/
def armed {c : Params} (r : Regs c) : Bool := r.armCnt == 3#2

/-- `EDGE = ARMED and (IN_S2 != IN_PREV)`: any line, either direction (R86, R108, C2). -/
def edge {c : Params} (r : Regs c) : Bool := armed r && (r.inS2 != r.inPrev)

/-- The deadband verdict at time `t`: accept when nothing was accepted yet, or when the modular
difference to the last accepted time exceeds `DEADBAND_US` (R66, C1). -/
def passAt (c : Params) (lastValid : Bool) (lastT t : BitVec c.tsW) : Bool :=
  !lastValid || decide (c.deadbandUs < (t - lastT).toNat)

/-- `PASS`, the verdict at the current capture edge, `t = TS` (R66). -/
def pass {c : Params} (r : Regs c) : Bool := passAt c r.lastValid r.lastT r.ts

/-- `r_c = gray2bin(RG_S2)`, the capture domain's view of the read cursor (R75, R25). -/
def readView {c : Params} (r : Regs c) : BitVec c.ptrW := gray2bin r.rg.s2

/-- `w_d = gray2bin(WG_S2)`, the drain domain's view of the write cursor (R76, R28). -/
def writeView {c : Params} (r : Regs c) : BitVec c.ptrW := gray2bin r.wg.s2

/-- `FULL = (inc(WPTR) == r_c)` (R75). -/
def full {c : Params} (r : Regs c) : Bool := inc r.wptr == readView r

/-- `EMPTY = (RPTR == w_d)` (R76). -/
def empty {c : Params} (r : Regs c) : Bool := r.rptr == writeView r

/-- `OUT_VALID = not EMPTY` (R96). -/
def outValid {c : Params} (r : Regs c) : Bool := !empty r

/-- `OUT_DROPPED = gray2bin(DG_S2)` (R98). -/
def outDropped {c : Params} (r : Regs c) : BitVec c.dropW := gray2bin r.dg.s2

end Sys2Proof.Machine
end

