-- ==== Sys2Proof/Machine/Ops.lean ====
section
/-! DEFINITION. The named operations over the slot array, the crossings and the registers. Each reads the
registers before the step and writes its own (R13); where a meaning composes two of them, neither reads
what the other writes, so that the composition is the spec's simultaneous update. -/

namespace Sys2Proof.Machine

/-! ### The slot array (R30, R33, R37) -/

/-- What a listed slot holds. -/
def Memory.read {w : Nat} : Memory w → Nat → Option (BitVec w)
  | [], _ => none
  | (k, v) :: rest, i => if i = k then some v else Memory.read rest i

/-- The array with slot `i` holding `v`, indices still rising. -/
def Memory.write {w : Nat} : Memory w → Nat → BitVec w → Memory w
  | [], i, v => [(i, v)]
  | (k, u) :: rest, i, v =>
    if i < k then (i, v) :: (k, u) :: rest
    else if i = k then (i, v) :: rest
    else (k, u) :: Memory.write rest i v

/-- The canonical form: indices strictly rising. (An unlisted slot has no value, so no entry can equal
what it reads as.) -/
def Memory.wf {w : Nat} : Memory w → Bool
  | [] => true
  | (k, _) :: rest => rest.all (fun e => decide (k < e.1)) && Memory.wf rest

/-- `MemRead(i)`: the word slot `i` holds (R13, R37); a free value while nothing has written it (R30,
U2). -/
def memRead {c : Params} (r : Regs c) (i : BitVec c.ptrW) : BitVec c.frameW :=
  (Memory.read r.slots i.toNat).getD (Config.unwrittenSlot c.frameW i.toNat)

/-- `MemWrite(i, v)`: all `FW` bits of slot `i` (R13, R37). -/
def memWrite {c : Params} (r : Regs c) (i : BitVec c.ptrW) (v : BitVec c.frameW) : Regs c :=
  { r with slots := Memory.write r.slots i.toNat v }

/-! ### The crossings (R81, R82) -/

/-- A step writes the Gray source: on a change the old value and the fact of the change are kept; "a
write of an equal value changes neither" (R81). -/
def Crossing.write {w : Nat} (x : Crossing w) (v : BitVec w) : Crossing w :=
  if v = x.src then x else { x with src := v, prev := x.src, chg := true }

/-- One receiving edge: `S2 <- S1`; `S1` takes the source, or, if the source changed since the last
sample and the draw `old` says so, its previous value; `CHG <- 0` (R82). -/
def Crossing.sample {w : Nat} (x : Crossing w) (old : Bool) : Crossing w :=
  { x with s2 := x.s1, s1 := if x.chg && old then x.prev else x.src, chg := false }

/-! ### The deadband (R67, R68) -/

/-- The deadband update on acceptance: `LAST_T <- TS`, `LAST_VALID <- 1` (R67). -/
def deadbandUpdate {c : Params} (r : Regs c) : Regs c :=
  { r with lastT := r.ts, lastValid := true }

/-- The filter's own state, `LAST_VALID` and `LAST_T`, as R68's function form takes it. -/
structure Deadband (c : Params) where
  lastValid : Bool
  lastT : BitVec c.tsW
deriving DecidableEq, Repr

/-- `accept(t) -> bool`: R66's verdict, and R67's update when it is true (R68). -/
def accept {c : Params} (b : Deadband c) (t : BitVec c.tsW) : Bool × Deadband c :=
  if passAt c b.lastValid b.lastT t then (true, { lastValid := true, lastT := t }) else (false, b)

/-- The verdicts on a sequence of edge events, `accept` applied "to each in order" (R68). -/
def acceptAll {c : Params} (b : Deadband c) : List (BitVec c.tsW) → List Bool
  | [] => []
  | t :: ts => (accept b t).1 :: acceptAll (accept b t).2 ts

/-! ### The ring (R78, R79, R97) -/

/-- `Push(f)`: on success the slot, the cursor and its Gray copy are written in one step; on failure
nothing (R78). -/
def push {c : Params} (f : BitVec c.frameW) (r : Regs c) : Bool × Regs c :=
  if full r then (false, r)
  else
    (true,
      { memWrite r r.wptr f with
        wptr := inc r.wptr
        wg := r.wg.write (bin2gray (inc r.wptr)) })

/-- `Pop()`: hands over the oldest frame and advances the cursor and its Gray copy; when empty, nothing
(R79). -/
def pop {c : Params} (r : Regs c) : Option (BitVec c.frameW) × Regs c :=
  if empty r then (none, r)
  else
    (some (memRead r r.rptr),
      { r with rptr := inc r.rptr, rg := r.rg.write (bin2gray (inc r.rptr)) })

/-- `OUT_FRAME`: the oldest unpopped frame while `OUT_VALID = 1`, no value otherwise (R97, R107(b)). -/
def outFrame {c : Params} (r : Regs c) : Option (BitVec c.frameW) :=
  if outValid r then some (memRead r r.rptr) else none

/-! ### The drop counter (R93, R26) -/

/-- `d = sat_DROP_W(DROP + 1)`, `DROP <- d`, `DROP_GRAY <- bin2gray(d)` (R93). -/
def countDrop {c : Params} (r : Regs c) : Regs c :=
  { r with
    drop := sat c.dropW (r.drop.toNat + 1)
    dg := r.dg.write (bin2gray (sat c.dropW (r.drop.toNat + 1))) }

/-! ### The common parts (R87, R88, R99) -/

/-- `ARM_CNT <- min(ARM_CNT + 1, 3)` (R87). -/
def nextArmCnt {c : Params} (r : Regs c) : BitVec 2 := BitVec.ofNat 2 (min (r.armCnt.toNat + 1) 3)

/-- The prescaler is at its last count, `PRESC == TICKS_PER_US - 1` (R88). -/
def prescLast {c : Params} (r : Regs c) : Bool := r.presc.toNat + 1 == c.ticksPerUs

/-- `PRESC` after a capture step (R88). -/
def nextPresc {c : Params} (r : Regs c) : BitVec c.prescW :=
  if armed r then (if prescLast r then 0 else r.presc + 1) else r.presc

/-- `TS` after a capture step, modulo `2^TS_W` (R88). -/
def nextTs {c : Params} (r : Regs c) : BitVec c.tsW :=
  if armed r && prescLast r then r.ts + 1 else r.ts

/-- The common part of every capture step: sampling, arming, timestamp, read-cursor synchronizer
(R87, R88, R82). -/
def captureCommon {c : Params} (d : Drive) (r : Regs c) : Regs c :=
  { r with
    inS1 := d.lines
    inS2 := r.inS1
    inPrev := r.inS2
    armCnt := nextArmCnt r
    presc := nextPresc r
    ts := nextTs r
    rg := r.rg.sample d.rgOld }

/-- The common part of every drain step: the write-cursor and drop-count synchronizers (R99, R82). -/
def drainCommon {c : Params} (d : Drive) (r : Regs c) : Regs c :=
  { r with wg := r.wg.sample d.wgOld, dg := r.dg.sample d.dgOld }

/-! ### One step of the machine -/

/-- The environment's draws for the coming step: the first of the stimulus, a free value beyond it
(R18, R39; log entry 3). -/
def State.drive (s : State) : Drive :=
  match s.stimulus with
  | d :: _ => d
  | [] => Config.environment s.drawn

/-- The state after a step that leaves the registers `r`: the step's draws are used up, the build is
unchanged (R12). -/
def State.after (s : State) (r : Regs s.cfg) : State :=
  { s with regs := r, stimulus := s.stimulus.tail, drawn := s.drawn + 1 }

/-- One operation, given by what it does to the registers under the step's draws. A build outside R6 to
R10 has no meaning (R107(a)); every operation of any other completes (R58, R107(c)). -/
def operate (s : State) (f : Drive → Regs s.cfg → Regs s.cfg) :
    Host.Outcome State Fault Refusal :=
  if s.cfg.valid then .next (s.after (f s.drive s.regs)) else .refused .unbuildable

end Sys2Proof.Machine
end

