-- ==== Sys2Proof/Machine/Capture.lean ====
section
/-! DEFINITION. The five capture-domain operations (44_capture_ops.md R89 to R93). -/

namespace Sys2Proof.Machine

/-- CAP_ARM on the registers: "the common part of rule R87 only" (R89). -/
def capArmRegs {c : Params} (d : Drive) (r : Regs c) : Regs c := captureCommon d r

/-- CAP_QUIET on the registers: "the common part of rule R87 only" (R90). -/
def capQuietRegs {c : Params} (d : Drive) (r : Regs c) : Regs c := captureCommon d r

/-- CAP_REJECT on the registers: the common part; "no deadband, ring or drop-counter write" (R91). -/
def capRejectRegs {c : Params} (d : Drive) (r : Regs c) : Regs c := captureCommon d r

/-- CAP_PUSH on the registers: the deadband update, `Push(Encode(TS, Snapshot()))` and the common part
(R92). -/
def capPushRegs {c : Params} (d : Drive) (r : Regs c) : Regs c :=
  captureCommon d (push (encodeFrame r.ts (snapshot r)) (deadbandUpdate r)).2

/-- CAP_DROP on the registers: the deadband update, the saturating drop count and the common part; no
slot and no cursor (R93, R104). -/
def capDropRegs {c : Params} (d : Drive) (r : Regs c) : Regs c :=
  captureCommon d (countDrop (deadbandUpdate r))

/-- CAP_ARM (R89). -/
def execCapArm (s : State) : Host.Outcome State Fault Refusal := operate s capArmRegs

/-- CAP_QUIET (R90). -/
def execCapQuiet (s : State) : Host.Outcome State Fault Refusal := operate s capQuietRegs

/-- CAP_REJECT (R91). -/
def execCapReject (s : State) : Host.Outcome State Fault Refusal := operate s capRejectRegs

/-- CAP_PUSH (R92). -/
def execCapPush (s : State) : Host.Outcome State Fault Refusal := operate s capPushRegs

/-- CAP_DROP (R93). -/
def execCapDrop (s : State) : Host.Outcome State Fault Refusal := operate s capDropRegs

end Sys2Proof.Machine
end

