-- ==== Sys2Proof/Machine/Drain.lean ====
section
/-! DEFINITION. The three drain-domain operations (45_drain_ops.md R100 to R102). -/

namespace Sys2Proof.Machine

/-- DRN_EMPTY on the registers: "the common part of rule R99 only" (R100). -/
def drnEmptyRegs {c : Params} (d : Drive) (r : Regs c) : Regs c := drainCommon d r

/-- DRN_HOLD on the registers: "the common part of rule R99 only" (R101). -/
def drnHoldRegs {c : Params} (d : Drive) (r : Regs c) : Regs c := drainCommon d r

/-- DRN_POP on the registers: the common part and `Pop()` (R102, R79). -/
def drnPopRegs {c : Params} (d : Drive) (r : Regs c) : Regs c := drainCommon d (pop r).2

/-- DRN_EMPTY (R100). -/
def execDrnEmpty (s : State) : Host.Outcome State Fault Refusal := operate s drnEmptyRegs

/-- DRN_HOLD (R101). -/
def execDrnHold (s : State) : Host.Outcome State Fault Refusal := operate s drnHoldRegs

/-- DRN_POP (R102). -/
def execDrnPop (s : State) : Host.Outcome State Fault Refusal := operate s drnPopRegs

end Sys2Proof.Machine
end

