-- ==== Sys2Proof/Machine/Reset.lean ====
section
/-! DEFINITION. RESET (70_reset_and_hazards.md R118). -/

namespace Sys2Proof.Machine

/-- RESET on the registers: every register its reset value, the sampling registers drawn, the slots not
written (R118). -/
def resetRegs {c : Params} (d : Drive) (r : Regs c) : Regs c :=
  Regs.resetWith c d.resetS1 d.resetS2 d.resetPrev r.slots

/-- RESET (R118). -/
def execReset (s : State) : Host.Outcome State Fault Refusal := operate s resetRegs

end Sys2Proof.Machine
end

