-- ==== Sys2Proof/Machine/Dispatch.lean ====
section
/-! DEFINITION. What each operation does: one arm per row of spec/opcode_table.json. -/

namespace Sys2Proof.Machine

def exec (i : Instr) (s : State) : Host.Outcome State Fault Refusal :=
  match i with
  | .capArm _ _ _ => Sys2Proof.Machine.execCapArm s
  | .capQuiet _ _ => Sys2Proof.Machine.execCapQuiet s
  | .capReject _ => Sys2Proof.Machine.execCapReject s
  | .capPush => Sys2Proof.Machine.execCapPush s
  | .capDrop => Sys2Proof.Machine.execCapDrop s
  | .drnEmpty _ => Sys2Proof.Machine.execDrnEmpty s
  | .drnHold => Sys2Proof.Machine.execDrnHold s
  | .drnPop => Sys2Proof.Machine.execDrnPop s
  | .reset => Sys2Proof.Machine.execReset s

end Sys2Proof.Machine
end

