-- ==== Sys2Proof/Decode.lean ====
section
/-! DEFINITION. The decode of the three select vectors (30_encoding.md R55 to R58), the opcode table as
rows of mask and match, the encoder, and the reading of a table word of which only the number is known. -/

namespace Sys2Proof

/-- Why a select vector names no operation. -/
inductive DecodeError where
  /-- `RSTSEL = 0`: with `RST` released the clock edge's own vector decides, and RSTSEL names no
  operation (R55). -/
  | resetReleased
deriving DecidableEq, Repr

/-- The decode of `CSEL` (R56): each of its 16 values selects one operation (R58). -/
def decodeCsel (v : BitVec 4) : Instr :=
  match v.getLsbD 3, v.getLsbD 2, v.getLsbD 1, v.getLsbD 0 with
  | false, e, p, f => .capArm e p f
  | true, false, p, f => .capQuiet p f
  | true, true, false, f => .capReject f
  | true, true, true, false => .capPush
  | true, true, true, true => .capDrop

/-- The decode of `DSEL` (R57): each of its 4 values selects one operation (R58). -/
def decodeDsel (v : BitVec 2) : Instr :=
  match v.getLsbD 1, v.getLsbD 0 with
  | false, r => .drnEmpty r
  | true, false => .drnHold
  | true, true => .drnPop

/-- The decode of `RSTSEL`: match `1` is RESET (R55). -/
def decodeRstsel (v : BitVec 1) : Except DecodeError Instr :=
  if v.getLsbD 0 then .ok .reset else .error .resetReleased

/-- The operation a select vector selects. -/
def decode : SelectVec → Except DecodeError Instr
  | .csel v => .ok (decodeCsel v)
  | .dsel v => .ok (decodeDsel v)
  | .rstsel v => decodeRstsel v

/-- A 4-bit vector from its bits, most significant first. -/
def bits4 (b3 b2 b1 b0 : Bool) : BitVec 4 :=
  BitVec.ofBool b3 ++ BitVec.ofBool b2 ++ BitVec.ofBool b1 ++ BitVec.ofBool b0

/-- A 2-bit vector from its bits, most significant first. -/
def bits2 (b1 b0 : Bool) : BitVec 2 := BitVec.ofBool b1 ++ BitVec.ofBool b0

/-- The select vector of an operation, written from the pattern column of the opcode table. -/
def encode : Instr → SelectVec
  | .capArm e p f => .csel (bits4 false e p f)
  | .capQuiet p f => .csel (bits4 true false p f)
  | .capReject f => .csel (bits4 true true false f)
  | .capPush => .csel (bits4 true true true false)
  | .capDrop => .csel (bits4 true true true true)
  | .drnEmpty r => .dsel (bits2 false r)
  | .drnHold => .dsel (bits2 true false)
  | .drnPop => .dsel (bits2 true true)
  | .reset => .rstsel 1#1

/-- One row of spec/opcode_table.json: format, mask and match as the table gives them. -/
structure OpRow where
  format : Format
  mask : Nat
  value : Nat
deriving DecidableEq, Repr

/-- The row of an operation (the mask and match columns of R56, R57 and R55). -/
def Instr.row : Instr → OpRow
  | .capArm _ _ _ => ⟨.csel, 0b1000, 0b0000⟩
  | .capQuiet _ _ => ⟨.csel, 0b1100, 0b1000⟩
  | .capReject _ => ⟨.csel, 0b1110, 0b1100⟩
  | .capPush => ⟨.csel, 0b1111, 0b1110⟩
  | .capDrop => ⟨.csel, 0b1111, 0b1111⟩
  | .drnEmpty _ => ⟨.dsel, 0b10, 0b00⟩
  | .drnHold => ⟨.dsel, 0b11, 0b10⟩
  | .drnPop => ⟨.dsel, 0b11, 0b11⟩
  | .reset => ⟨.rstsel, 0b1, 0b1⟩

/-- Whether a row matches a select vector: same format, and the vector under the mask is the match. -/
def OpRow.fits (o : OpRow) (v : SelectVec) : Bool :=
  decide (o.format = v.format) && decide (v.bits &&& o.mask = o.value)

/-- `w` read as a select vector of the given width; the width of a select vector is its format. -/
def selectVecOfWidth (width w : Nat) : Option SelectVec :=
  if w < 2 ^ width then
    match width with
    | 1 => some (.rstsel (BitVec.ofNat 1 w))
    | 2 => some (.dsel (BitVec.ofNat 2 w))
    | 4 => some (.csel (BitVec.ofNat 4 w))
    | _ => none
  else none

/-- The operation of `w` read as a select vector of the given width, if there is one. -/
def decodeWidth (width w : Nat) : Option Instr :=
  match selectVecOfWidth width w with
  | some v => (decode v).toOption
  | none => none

/-- The operation that a table word of `nbits` bits and value `w` names. A width of 1, 2 or 4 bits is
the format's own. A word padded to whole bytes no longer says its format: it is read in the narrowest
format that has an operation for it (RSTSEL, then DSEL, then CSEL), the bits above that format being
0. DESIGN CHOICE, log entry 8: the spec's formats do not share one word space. -/
def decodeTableWord (nbits w : Nat) : Option Instr :=
  match nbits with
  | 1 => decodeWidth 1 w
  | 2 => decodeWidth 2 w
  | 4 => decodeWidth 4 w
  | _ => (decodeWidth 1 w).or ((decodeWidth 2 w).or (decodeWidth 4 w))

end Sys2Proof
end

