-- ==== Sys2Proof/Machine/Select.lean ====
section
/-! DEFINITION. The selection of a step's operation (R55 to R57, R110), which stands where another
machine fetches an instruction, and what it takes for a given select vector to be formed next. -/

namespace Sys2Proof.Machine

/-- `CSEL = {ARMED, EDGE, PASS, FULL}` (R56). -/
def csel {c : Params} (r : Regs c) : BitVec 4 := bits4 (armed r) (edge r) (pass r) (full r)

/-- `DSEL = {OUT_VALID, OUT_READY}` (R57). -/
def dsel {c : Params} (r : Regs c) (outReady : Bool) : BitVec 2 := bits2 (outValid r) outReady

/-- The select vector of the coming step: RSTSEL while `RST = 1`, "whatever its select vector" (R55,
R110(1)), else the vector of the clock that has its edge. -/
def State.selectVec (s : State) : SelectVec :=
  match s.drive.rst, s.drive.clock with
  | .released, .capture => .csel (csel s.regs)
  | .released, .drain => .dsel (dsel s.regs s.drive.outReady)
  | _, _ => .rstsel 1#1

/-! ### Making a select vector come next (for `State.withFetchWord`) -/

/-- The registers with `PASS` at the given value. -/
def setPass {c : Params} (b : Bool) (r : Regs c) : Regs c :=
  if b then { r with lastValid := false } else { r with lastValid := true, lastT := r.ts }

/-- The registers with `FULL` at the given value. -/
def setFull {c : Params} (b : Bool) (r : Regs c) : Regs c :=
  { r with rg := { r.rg with s2 := bin2gray (if b then inc r.wptr else r.wptr) } }

/-- The registers with `OUT_VALID` at the given value. -/
def setOutValid {c : Params} (b : Bool) (r : Regs c) : Regs c :=
  { r with wg := { r.wg with s2 := bin2gray (if b then inc r.rptr else r.rptr) } }

/-- The registers with `ARMED` at 1 and `EDGE` at the given value. -/
def setEdge {c : Params} (b : Bool) (r : Regs c) : Regs c :=
  { r with armCnt := 3, inPrev := if b then ~~~ r.inS2 else r.inS2 }

/-- The registers with the select bits of an operation. CAP_ARM's `EDGE` cannot be 1 (R58). -/
def selectingRegs {c : Params} (i : Instr) (r : Regs c) : Regs c :=
  match i with
  | .capArm _ p f => setFull f (setPass p { r with armCnt := 0 })
  | .capQuiet p f => setFull f (setPass p (setEdge false r))
  | .capReject f => setFull f (setPass false (setEdge true r))
  | .capPush => setFull false (setPass true (setEdge true r))
  | .capDrop => setFull true (setPass true (setEdge true r))
  | .drnEmpty _ => setOutValid false r
  | .drnHold => setOutValid true r
  | .drnPop => setOutValid true r
  | .reset => r

/-- A drive with every line low and every synchronizer draw the current value. -/
def lowDrive (rst : RstLine) (clock : Clock) (outReady : Bool) : Drive :=
  { rst, clock, pinData := 0, pinSig := 0, outReady, rgOld := false, wgOld := false, dgOld := false
    resetS1 := 0, resetS2 := 0, resetPrev := 0 }

/-- The drive under which an operation can be selected. -/
def selectingDrive : Instr → Drive
  | .capArm _ _ _ => lowDrive .released .capture false
  | .capQuiet _ _ => lowDrive .released .capture false
  | .capReject _ => lowDrive .released .capture false
  | .capPush => lowDrive .released .capture false
  | .capDrop => lowDrive .released .capture false
  | .drnEmpty r => lowDrive .released .drain r
  | .drnHold => lowDrive .released .drain false
  | .drnPop => lowDrive .released .drain true
  | .reset => lowDrive .both .capture false

/-- The state in which the next step selects `i`: its select bits in the registers, its draws first in
the stimulus, all else as before (log entry 9). -/
def State.selecting (s : State) (i : Instr) : State :=
  { s with regs := selectingRegs i s.regs, stimulus := selectingDrive i :: s.stimulus }

end Sys2Proof.Machine
end

