-- ==== Sys2Proof/Machine/Step.lean ====
section
/-! DEFINITION. One step: a capture step, a drain step or RESET, as the draws and the select vector say
(R39, R55 to R58, R110). -/

namespace Sys2Proof.Machine

/-- One step of the machine. A reset of one domain alone is refused (R121, U7); otherwise the operation
that the step's select vector decodes to is performed, whole (R106). -/
def step (s : State) : Host.Outcome State Fault Refusal :=
  match s.drive.rst with
  | .captureOnly => .refused .partialReset
  | .drainOnly => .refused .partialReset
  | _ =>
    match decode s.selectVec with
    | .ok i => exec i s
    | .error _ => .refused .noOperation

/-- `s` with the operation that the table word `w` names selected next. The block fetches nothing
(R16, R47): what stands for the fetch are the registers and draws its select vector is formed from
(log entries 8 and 9). A word that names no operation leaves `s` as it is. -/
def State.withFetchWord (s : State) (nbits w : Nat) : State :=
  match decodeTableWord nbits w with
  | some i => s.selecting i
  | none => s

end Sys2Proof.Machine
end

