-- ==== Sys2Proof/Machine/Record.lean ====
section
/-! DEFINITION. The reference record of a frame (30_encoding.md R59, 41_snapshot_encoder.md R64, R65): an
observation of what the block hands over, not something the block computes. Text is a list of
characters. -/

namespace Sys2Proof.Machine

/-- One hexadecimal digit, lowercase (R64). -/
def hexDigit (n : Nat) : Char := Nat.digitChar (n % 16)

/-- `hex2(b)`: two digits, high nibble first, zero-padded, lowercase (R64). -/
def hex2 (b : DataByte) : List Char := [hexDigit (b.toNat / 16), hexDigit b.toNat]

/-- `dec(n)`: decimal digits, no sign, no leading zeros, "0" for 0 (R64). -/
def dec (n : Nat) : List Char := Nat.toDigits 10 n

/-- `chr(x)`: "1" or "0" (R64). -/
def chr (b : Bool) : Char := if b then '1' else '0'

/-- The 11 fields of a record in their order (R59). -/
def recordFields {tsW : Nat} (f : BitVec (tsW + 17)) : List (List Char) :=
  dec (frameTimestamp f).toNat :: hex2 (frameData f) ::
    (List.range 9).map fun k => [chr (frameBit f k)]

/-- `Record(f)`: the fields separated by a single comma, no spaces, no line terminator (R59, R64, C3). -/
def record {tsW : Nat} (f : BitVec (tsW + 17)) : List Char :=
  [','].intercalate (recordFields f)

/-- The frame the consumer takes in the coming step: `OUT_FRAME` before the edge, when the step's
operation is DRN_POP (R102). -/
def State.popped (s : State) : Option (BitVec s.cfg.frameW) :=
  if s.selectVec = encode .drnPop then outFrame s.regs else none

/-- The record a sink renders for the coming step: one per popped frame, none otherwise (R65). -/
def State.poppedRecord (s : State) : Option (List Char) := s.popped.map (record (tsW := s.cfg.tsW))

end Sys2Proof.Machine
end

