-- ==== Sys2Proof/Safety.lean ====
section
/-! DEFINITION. What a safe run is, in the terms the statements use: what one crossing, one capture step
and one drain step do (as relations, from the rules' own words), the invariant of the block, the frames
the ring holds, and runs with what they push and pop. -/

namespace Sys2Proof.Machine

/-! ### What a step does to its registers, as relations -/

/-- A write of `v` to a Gray source (R81): bookkeeping only on a change, synchronizer untouched. -/
abbrev Changed {w : Nat} (x x' : Crossing w) (v : BitVec w) : Prop :=
  x'.src = v ∧ (v ≠ x.src → x'.prev = x.src ∧ x'.chg = true) ∧
    (v = x.src → x'.prev = x.prev ∧ x'.chg = x.chg) ∧ x'.s1 = x.s1 ∧ x'.s2 = x.s2

/-- A receiving edge of a synchronizer with draw `old` (R82). -/
abbrev Sampled {w : Nat} (x x' : Crossing w) (old : Bool) : Prop :=
  x'.s2 = x.s1 ∧ (x.chg = true → x'.s1 = if old then x.prev else x.src) ∧
    (x.chg = false → x'.s1 = x.src) ∧ x'.chg = false ∧ x'.src = x.src ∧ x'.prev = x.prev

/-- The common part of a capture step: sampling and arming (R87), timestamp (R88), read-cursor
synchronizer (R82). -/
abbrev CaptureCommonEffect {c : Params} (d : Drive) (r r' : Regs c) : Prop :=
  r'.inS1 = d.lines ∧ r'.inS2 = r.inS1 ∧ r'.inPrev = r.inS2 ∧
    r'.armCnt.toNat = min (r.armCnt.toNat + 1) 3 ∧
    (r.armCnt = 3#2 → r.presc.toNat = c.ticksPerUs - 1 →
      r'.presc = 0 ∧ r'.ts.toNat = (r.ts.toNat + 1) % 2 ^ c.tsW) ∧
    (r.armCnt = 3#2 → r.presc.toNat ≠ c.ticksPerUs - 1 →
      r'.presc = r.presc + 1 ∧ r'.ts = r.ts) ∧
    (r.armCnt ≠ 3#2 → r'.presc = r.presc ∧ r'.ts = r.ts) ∧
    Sampled r.rg r'.rg d.rgOld

/-- The common part of a drain step: the two synchronizers of the drain domain (R99, R82). -/
abbrev DrainCommonEffect {c : Params} (d : Drive) (r r' : Regs c) : Prop :=
  Sampled r.wg r'.wg d.wgOld ∧ Sampled r.dg r'.dg d.dgOld

/-- The ring's producer side is as before: every slot, the write cursor and its crossing. -/
abbrev SameProducer {c : Params} (r r' : Regs c) : Prop :=
  (∀ a, Memory.read r'.slots a = Memory.read r.slots a) ∧ r'.wptr = r.wptr ∧ r'.wg = r.wg

/-- The ring's consumer cursor is as before. -/
abbrev SameConsumer {c : Params} (r r' : Regs c) : Prop := r'.rptr = r.rptr ∧ r'.rg = r.rg

/-- The drop counter and its crossing are as before. -/
abbrev SameDrops {c : Params} (r r' : Regs c) : Prop := r'.drop = r.drop ∧ r'.dg = r.dg

/-- The deadband filter's state is as before. -/
abbrev SameDeadband {c : Params} (r r' : Regs c) : Prop :=
  r'.lastT = r.lastT ∧ r'.lastValid = r.lastValid

/-- The sampling, arming and timestamp registers are as before. -/
abbrev SameSampler {c : Params} (r r' : Regs c) : Prop :=
  r'.inS1 = r.inS1 ∧ r'.inS2 = r.inS2 ∧ r'.inPrev = r.inPrev ∧ r'.armCnt = r.armCnt ∧
    r'.presc = r.presc ∧ r'.ts = r.ts

/-- Every hardware register of the capture domain and every slot (10_state.md section 3, R30). -/
abbrev SameCaptureDomain {c : Params} (r r' : Regs c) : Prop :=
  SameSampler r r' ∧ SameDeadband r r' ∧ r'.wptr = r.wptr ∧ r'.wg.src = r.wg.src ∧
    r'.drop = r.drop ∧ r'.dg.src = r.dg.src ∧ r'.rg.s1 = r.rg.s1 ∧ r'.rg.s2 = r.rg.s2 ∧
    r'.slots = r.slots

/-- Every hardware register of the drain domain (10_state.md section 4). -/
abbrev SameDrainDomain {c : Params} (r r' : Regs c) : Prop :=
  r'.rptr = r.rptr ∧ r'.rg.src = r.rg.src ∧ r'.wg.s1 = r.wg.s1 ∧ r'.wg.s2 = r.wg.s2 ∧
    r'.dg.s1 = r.dg.s1 ∧ r'.dg.s2 = r.dg.s2

/-! ### The invariant -/

/-- The distance from `a` forward to `x` in ring order, `(x - a) mod 2^W` (R41). -/
def ahead {w : Nat} (a x : BitVec w) : Nat := (x - a).toNat

/-- The number of frames held, `(WPTR - RPTR) mod RING_N` (R77). -/
def occupancy {c : Params} (r : Regs c) : Nat := ahead r.rptr r.wptr

/-- Each Gray register is the Gray code of its counter (R24, R26, R27). -/
abbrev GrayCopies {c : Params} (r : Regs c) : Prop :=
  r.wg.src = bin2gray r.wptr ∧ r.rg.src = bin2gray r.rptr ∧ r.dg.src = bin2gray r.drop

/-- The stages of a crossing hold values in the source's counting order, measured by `dist`: `S2` no
newer than `S1`, `S1` no newer than the source, and while a change is pending the previous value lies
between (R83). -/
abbrev Crossing.inOrder {w : Nat} (x : Crossing w) (dist : BitVec w → Nat) : Prop :=
  dist (gray2bin x.s2) ≤ dist (gray2bin x.s1) ∧ dist (gray2bin x.s1) ≤ dist (gray2bin x.src) ∧
    (x.chg = true → dist (gray2bin x.s1) ≤ dist (gray2bin x.prev) ∧
      dist (gray2bin x.prev) ≤ dist (gray2bin x.src))

/-- The pointer chain of R41 with the synchronizers' first stages in it: from the capture domain's view
of the read cursor forward come the read cursor, the drain domain's view of the write cursor and the
write cursor. -/
abbrev PointerOrder {c : Params} (r : Regs c) : Prop :=
  r.rg.inOrder (ahead (readView r)) ∧
    ahead (readView r) r.rptr ≤ ahead (readView r) (writeView r) ∧
    r.wg.inOrder (ahead (readView r))

/-- The chain as R41 writes it. -/
abbrev PointerChain {c : Params} (r : Regs c) : Prop :=
  ahead (readView r) r.rptr ≤ ahead (readView r) (writeView r) ∧
    ahead (readView r) (writeView r) ≤ ahead (readView r) r.wptr ∧
    ahead (readView r) r.wptr ≤ c.ringN - 1

/-- The index of the `k`-th oldest frame held. -/
def liveIndex {c : Params} (r : Regs c) (k : Nat) : BitVec c.ptrW := r.rptr + BitVec.ofNat c.ptrW k

/-- The slot array is in canonical form and lists only slots that exist (R33, R34), and every frame held
stands in a slot that has been written (R43). -/
abbrev SlotsOk {c : Params} (r : Regs c) : Prop :=
  Memory.wf r.slots = true ∧ (r.slots.all fun e => decide (e.1 < c.ringN)) = true ∧
    ∀ k, k < occupancy r → (Memory.read r.slots (liveIndex r k).toNat).isSome = true

/-- Until the first acceptance nothing has been pushed, popped or dropped (R23, R92). -/
abbrev Fresh {c : Params} (r : Regs c) : Prop :=
  r.lastValid = false →
    r.lastT = 0 ∧ r.wptr = 0 ∧ r.wg = Crossing.reset _ ∧ r.drop = 0 ∧ r.dg = Crossing.reset _ ∧
      r.rptr = 0 ∧ r.rg = Crossing.reset _

/-- Until capture start the timestamp is 0 and nothing is accepted (R88, R120); the prescaler is in its
range (R21). -/
abbrev TimeOk {c : Params} (r : Regs c) : Prop :=
  r.presc.toNat < c.ticksPerUs ∧
    (armed r = false → r.presc = 0 ∧ r.ts = 0 ∧ r.lastValid = false)

/-- The invariant of a block's registers. -/
abbrev Regs.Inv {c : Params} (r : Regs c) : Prop :=
  GrayCopies r ∧ PointerOrder r ∧ r.dg.inOrder BitVec.toNat ∧ SlotsOk r ∧ Fresh r ∧ TimeOk r

/-- The invariant of the machine: an admissible build whose registers keep theirs. -/
abbrev State.Inv (s : State) : Prop := s.cfg.valid = true ∧ s.regs.Inv

/-! ### The frames held, and runs -/

/-- The frames the ring holds, oldest first (R77). -/
def contents {c : Params} (r : Regs c) : List (BitVec c.frameW) :=
  (List.range (occupancy r)).map fun k => memRead r (liveIndex r k)

/-- The frame the coming step enqueues: that of its edge event, when the step is CAP_PUSH (R92). -/
def State.pushed (s : State) : Option (BitVec s.cfg.frameW) :=
  if s.selectVec = encode .capPush then some (encodeFrame s.regs.ts (snapshot s.regs)) else none

/-- The registers of a block right after a reset, whatever its draws were and whatever the slots still
hold (R118). -/
abbrev State.JustReset (s : State) : Prop :=
  ∃ (a b e : Lines) (m : Memory s.cfg.frameW), Memory.wf m = true ∧
    (m.all fun x => decide (x.1 < s.cfg.ringN)) = true ∧ s.regs = Regs.resetWith s.cfg a b e m

/-- `n` steps, stopping at the first that does not answer a next state. -/
def State.run : Nat → State → Host.Outcome State Fault Refusal
  | 0, s => .next s
  | n + 1, s =>
    match step s with
    | .next t => State.run n t
    | .fault f => .fault f
    | .refused e => .refused e

/-- The operations of the first `n` steps, as far as they are taken. -/
def State.operations : Nat → State → List Instr
  | 0, _ => []
  | n + 1, s =>
    match decode s.selectVec, step s with
    | .ok i, .next t => i :: State.operations n t
    | _, _ => []

/-- The frames enqueued by the first `n` steps, in order, as numbers. -/
def State.pushes : Nat → State → List Nat
  | 0, _ => []
  | n + 1, s =>
    match step s with
    | .next t => (s.pushed.map BitVec.toNat).toList ++ State.pushes n t
    | _ => []

/-- The frames handed over by the first `n` steps, in order, as numbers. -/
def State.pops : Nat → State → List Nat
  | 0, _ => []
  | n + 1, s =>
    match step s with
    | .next t => (s.popped.map BitVec.toNat).toList ++ State.pops n t
    | _ => []

/-- The hexadecimal digits, lowercase, in order (R64). -/
def hexAlphabet : List Char :=
  ['0', '1', '2', '3', '4', '5', '6', '7', '8', '9', 'a', 'b', 'c', 'd', 'e', 'f']

/-- The times at which a sequence of edge events is accepted, in order (R68). -/
def acceptedTimes {c : Params} (b : Deadband c) : List (BitVec c.tsW) → List (BitVec c.tsW)
  | [] => []
  | t :: ts =>
    if (accept b t).1 then t :: acceptedTimes (accept b t).2 ts else acceptedTimes (accept b t).2 ts

end Sys2Proof.Machine
end

