-- ==== Sys2Proof/Certificates/Slice0/Obligations.lean ====
section
/-! DEFINITION. The statements for the provers: what the numbered rules of spec/ say the block does. Each
docstring names the rule, or says that the statement is about a choice of the model's. Two states of one
build are compared through `s.after r'`, the state a step leads to when it leaves the registers `r'`. -/

open Sys2Proof Sys2Proof.Machine

/-! ### Selection and encoding -/

/-- R58: every value of `CSEL` and of `DSEL` selects exactly one row; `01--` decodes as CAP_ARM and no
block forms it. -/
def Obligations.SelectDecodesAreTotal : Prop :=
  (∀ v : BitVec 4, ∃ i, decode (.csel v) = .ok i ∧ i.isCapture = true) ∧
    (∀ v : BitVec 2, ∃ i, decode (.dsel v) = .ok i ∧ i.isDrain = true) ∧
    (∀ (v : SelectVec) (i j : Instr), decode v = .ok i → (j.row.fits v = true ↔ j.row = i.row)) ∧
    (∀ v : BitVec 4, v.getLsbD 3 = false → ∃ e p f, decode (.csel v) = .ok (.capArm e p f)) ∧
    ∀ (c : Params) (r : Regs c), ¬((csel r).getLsbD 3 = false ∧ (csel r).getLsbD 2 = true)

/-- R55 to R57: decoding and encoding are inverse, no bit of a select vector is dropped. -/
def Obligations.DecodeAndEncodeAgree : Prop :=
  (∀ i, decode (encode i) = .ok i) ∧ ∀ v i, decode v = .ok i → encode i = v

/-- R55 to R57: select vectors written out from the pattern columns decode to their rows. -/
def Obligations.WrittenOutVectorsDecode : Prop :=
  decode (.csel 0b0010#4) = .ok (.capArm false true false) ∧
    decode (.csel 0b1001#4) = .ok (.capQuiet false true) ∧
    decode (.csel 0b1101#4) = .ok (.capReject true) ∧
    decode (.csel 0b1110#4) = .ok .capPush ∧ decode (.csel 0b1111#4) = .ok .capDrop ∧
    decode (.dsel 0b01#2) = .ok (.drnEmpty true) ∧ decode (.dsel 0b10#2) = .ok .drnHold ∧
    decode (.dsel 0b11#2) = .ok .drnPop ∧ decode (.rstsel 0b1#1) = .ok .reset

/-- A step performs the operation its select vector decodes to, and adds nothing around it; that
operation is always one a block can select. -/
def Obligations.StepRunsTheDecodedOperation : Prop :=
  ∀ (s : State) (i : Instr), decode s.selectVec = .ok i →
    i.wf = true ∧ (s.drive.rst = .released ∨ s.drive.rst = .both → step s = exec i s)

/-- R56, R57, R110(2) and (3): with `RST = 0`, which operation a capture edge and a drain edge perform,
from the status signals before the edge. -/
def Obligations.EdgeSelectsByStatusSignals : Prop :=
  ∀ s : State, s.drive.rst = .released →
    (s.drive.clock = .capture →
      (armed s.regs = false → step s = exec (.capArm (edge s.regs) (pass s.regs) (full s.regs)) s) ∧
      (armed s.regs = true → edge s.regs = false →
        step s = exec (.capQuiet (pass s.regs) (full s.regs)) s) ∧
      (armed s.regs = true → edge s.regs = true → pass s.regs = false →
        step s = exec (.capReject (full s.regs)) s) ∧
      (armed s.regs = true → edge s.regs = true → pass s.regs = true → full s.regs = false →
        step s = exec .capPush s) ∧
      (armed s.regs = true → edge s.regs = true → pass s.regs = true → full s.regs = true →
        step s = exec .capDrop s)) ∧
    (s.drive.clock = .drain →
      (outValid s.regs = false → step s = exec (.drnEmpty s.drive.outReady) s) ∧
      (outValid s.regs = true → s.drive.outReady = false → step s = exec .drnHold s) ∧
      (outValid s.regs = true → s.drive.outReady = true → step s = exec .drnPop s))

/-- R55: while `RST = 1` the select vector is `RSTSEL = 1`, which decodes to RESET, and the step is RESET,
whatever the registers and the clock; `RSTSEL = 0` names no operation. -/
def Obligations.ResetOverridesSelection : Prop :=
  (∀ s : State, s.drive.rst = .both → s.selectVec = .rstsel 1#1 ∧ step s = exec .reset s) ∧
    decode (.rstsel 1#1) = .ok .reset ∧ ∀ i, decode (.rstsel 0#1) ≠ .ok i

/-- R107(c), R58: a step of an admissible build, with `RST` driven to both domains or to none, has a next
state; the stimulus loses exactly the draw used. -/
def Obligations.EveryStepCompletes : Prop :=
  ∀ s : State, s.cfg.valid = true → s.drive.rst = .released ∨ s.drive.rst = .both →
    ∃ r' : Regs s.cfg, step s =
      .next { cfg := s.cfg, regs := r', stimulus := s.stimulus.tail, drawn := s.drawn + 1 }

/-- R107(a), R121: what is refused, by which name; nothing ever faults. -/
def Obligations.RefusalsAreTheSpecs : Prop :=
  (∀ (s : State) (i : Instr), s.cfg.valid = false → exec i s = .refused .unbuildable) ∧
    (∀ s : State, s.drive.rst = .captureOnly ∨ s.drive.rst = .drainOnly →
      step s = .refused .partialReset) ∧
    ∀ (s : State) (f : Fault), step s ≠ .fault f

/-- R6 to R10: which builds are admitted. -/
def Obligations.AdmissibleBuilds : Prop :=
  ∀ c : Params, c.valid = true ↔
    (∃ a, 1 ≤ a ∧ c.ringN = 2 ^ a) ∧ c.deadbandUs ≤ 2 ^ c.tsW - 2 ∧ (1 ≤ c.tsW ∧ c.tsW ≤ 64) ∧
      1 ≤ c.ticksPerUs ∧ 1 ≤ c.dropW ∧ c.dropW ≤ 64

/-- R12: no step changes a parameter. -/
def Obligations.BuildNeverChanges : Prop :=
  ∀ s t : State, step s = .next t → t.cfg = s.cfg

/-- The model's choice (log entries 8 and 9): after `withFetchWord` the next step performs the operation
the table word names. -/
def Obligations.WithFetchWordSelectsTheOperation : Prop :=
  ∀ (s : State) (nbits w : Nat) (i : Instr), s.cfg.valid = true →
    decodeTableWord nbits w = some i → i.wf = true →
    step (s.withFetchWord nbits w) = exec i (s.withFetchWord nbits w)

/-! ### Gray code, pointers, frames and records -/

/-- R73: the two descriptions of `gray2bin`, and that it inverts `bin2gray`. -/
def Obligations.GrayCodeConverts : Prop :=
  (∀ (w : Nat) (g : BitVec w), 0 < w →
    (gray2bin g).getLsbD (w - 1) = g.getLsbD (w - 1) ∧
      ∀ i, i + 1 < w → (gray2bin g).getLsbD i = ((gray2bin g).getLsbD (i + 1) ^^ g.getLsbD i)) ∧
    (∀ (w : Nat) (b : BitVec w), gray2bin (bin2gray b) = b) ∧
    (∀ (w : Nat) (g : BitVec w), bin2gray (gray2bin g) = g) ∧
    gray2bin 0b10#2 = 3#2

/-- R74: consecutive Gray codes differ in one bit, the pointers' wrap included, so every change of a Gray
source by a step that is not a reset is a change of one bit. -/
def Obligations.GrayStepsAreOneBit : Prop :=
  (∀ (w : Nat) (p : BitVec w), 0 < w →
    ∃ k, k < w ∧ bin2gray (inc p) ^^^ bin2gray p = BitVec.twoPow w k) ∧
  (∀ (w : Nat) (x : BitVec w), x.toNat < 2 ^ w - 1 →
    ∃ k, k < w ∧ bin2gray (x + 1) ^^^ bin2gray x = BitVec.twoPow w k) ∧
  ∀ (s : State) (r' : Regs s.cfg), GrayCopies s.regs → s.drive.rst = .released →
    step s = .next (s.after r') →
    (r'.wg.src = s.regs.wg.src ∨
      ∃ k, k < s.cfg.ptrW ∧ r'.wg.src ^^^ s.regs.wg.src = BitVec.twoPow _ k) ∧
    (r'.rg.src = s.regs.rg.src ∨
      ∃ k, k < s.cfg.ptrW ∧ r'.rg.src ^^^ s.regs.rg.src = BitVec.twoPow _ k) ∧
    (r'.dg.src = s.regs.dg.src ∨
      ∃ k, k < s.cfg.dropW ∧ r'.dg.src ^^^ s.regs.dg.src = BitVec.twoPow _ k)

/-- R62: `Encode` is `t * 2^17 + s`, for timestamp 0 it is the snapshot, and each field comes back out;
with the rule's example. -/
def Obligations.FrameFieldsComeBack : Prop :=
  ∀ (tsW : Nat) (t : BitVec tsW) (p : Lines),
    (encodeFrame t p).toNat = t.toNat * 2 ^ 17 + p.toNat ∧
      frameTimestamp (encodeFrame t p) = t ∧ frameSignal (encodeFrame t p) = p.extractLsb' 8 9 ∧
      frameData (encodeFrame t p) = p.extractLsb' 0 8 ∧
      (∀ k, k < 9 → frameBit (encodeFrame t p) k = p.getLsbD (8 + k)) ∧
      encodeFrame (0#tsW) p = p.setWidth (tsW + 17) ∧
      (encodeFrame (BitVec.allOnes tsW) p).toNat = (2 ^ tsW - 1) * 2 ^ 17 + p.toNat ∧
      encodeFrame 10#32 0x0035A#17 = 0x14035A#49

/-- R59 for the 11 fields, their order and the single commas between them without spaces; R64 for how each
field is written: the timestamp in decimal digits without padding, the data byte as two lowercase
hexadecimal digits, high nibble first. That radix and that case are not R59's: they are the spec's
reference choice (D21), which the model takes by log entry 12 (DESIGN CHOICE). -/
def Obligations.RecordShape : Prop :=
  ∀ (tsW : Nat) (f : BitVec (tsW + 17)),
    (recordFields f).length = 11 ∧
      (recordFields f)[0]? = some (Nat.toDigits 10 (f.toNat / 2 ^ 17)) ∧
      (∃ h l, (recordFields f)[1]? = some [h, l] ∧
        hexAlphabet[f.toNat % 256 / 16]? = some h ∧ hexAlphabet[f.toNat % 16]? = some l) ∧
      (∀ k, k < 9 → (recordFields f)[k + 2]? = some [if f.getLsbD (8 + k) then '1' else '0']) ∧
      (∀ g ∈ recordFields f, g ≠ [] ∧ ',' ∉ g ∧ ' ' ∉ g) ∧
      record f = [','].intercalate (recordFields f) ∧ (record f).count ',' = 10 ∧ ' ' ∉ record f

/-- R65: the sink renders a record for a step exactly when the step pops a frame, and it is that of
`OUT_FRAME`. -/
def Obligations.OneRecordPerPoppedFrame : Prop :=
  ∀ s : State,
    (s.selectVec = .dsel 0b11#2 → ∃ f : BitVec s.cfg.frameW,
      outFrame s.regs = some f ∧ s.poppedRecord = some (record (tsW := s.cfg.tsW) f)) ∧
    (s.selectVec ≠ .dsel 0b11#2 → s.poppedRecord = none)

/-! ### The deadband -/

/-- R66: the verdict as arithmetic on numbers, one wrap of `TS` included. -/
def Obligations.DeadbandVerdict : Prop :=
  ∀ (c : Params) (r : Regs c), pass r = true ↔
    r.lastValid = false ∨
      c.deadbandUs < (r.ts.toNat + 2 ^ c.tsW - r.lastT.toNat) % 2 ^ c.tsW

/-- R69: after an accepted edge event, one at most `DEADBAND_US` later (no wrap) is rejected and changes
nothing. -/
def Obligations.SecondEdgeInWindowIsRejected : Prop :=
  ∀ (c : Params) (b b' : Deadband c) (t u : BitVec c.tsW),
    accept b t = (true, b') → t.toNat ≤ u.toNat → u.toNat - t.toNat ≤ c.deadbandUs →
    accept b' u = (false, b')

/-- R70: over any sequence of edge events whose times do not wrap, each accepted one is more than
`DEADBAND_US` after every earlier accepted one. -/
def Obligations.AcceptedTimesAreSpacedOut : Prop :=
  ∀ (c : Params) (b : Deadband c) (ts : List (BitVec c.tsW)),
    ts.Pairwise (fun x y => x.toNat ≤ y.toNat) →
    (b.lastValid = true → ∀ t ∈ ts, b.lastT.toNat ≤ t.toNat) →
    (acceptedTimes b ts).Pairwise (fun x y => x.toNat + c.deadbandUs < y.toNat) ∧
      (b.lastValid = true → ∀ t ∈ acceptedTimes b ts, b.lastT.toNat + c.deadbandUs < t.toNat)

/-- R92 with R66 and C1: the first edge event after a reset is pushed, whatever its time. -/
def Obligations.FirstEdgeIsPushed : Prop :=
  ∀ s : State, s.Inv → s.regs.lastValid = false → s.drive.rst = .released →
    s.drive.clock = .capture → armed s.regs = true → s.regs.inS2 ≠ s.regs.inPrev →
    step s = exec .capPush s

/-! ### The operations, one by one

Each statement takes in the states whose select vector names another operation, where R56 and R57 keep the
block from performing this one: what it does there is the model's choice (log entry 10). -/

/-- R89 to R91: CAP_ARM, CAP_QUIET and CAP_REJECT complete; they do the common part of R87 and nothing
else: deadband, ring, drop counter and drain domain are unchanged. -/
def Obligations.CaptureWithoutAcceptance : Prop :=
  ∀ (s : State) (i : Instr), s.cfg.valid = true →
    ((∃ e p f, i = .capArm e p f) ∨ (∃ p f, i = .capQuiet p f) ∨ ∃ f, i = .capReject f) →
    ∃ r' : Regs s.cfg, exec i s = .next (s.after r') ∧
      CaptureCommonEffect s.drive s.regs r' ∧ SameDeadband s.regs r' ∧ SameProducer s.regs r' ∧
      SameDrops s.regs r' ∧ r'.rptr = s.regs.rptr

/-- R92, R67, R78: CAP_PUSH completes; common part, deadband update, and with `FULL = 0` the frame
`Encode(TS, IN_S2)` in slot `WPTR`, every other slot as before, the cursor advanced modulo `RING_N` and its
Gray copy with it. The clause for `FULL = 1` is the model's own choice (log entry 10, DESIGN CHOICE): R92
gives CAP_PUSH only with `FULL = 0`, and R78's failure case is CAP_DROP. -/
def Obligations.CapPushEnqueues : Prop :=
  ∀ s : State, s.cfg.valid = true →
    ∃ r' : Regs s.cfg, exec .capPush s = .next (s.after r') ∧
      CaptureCommonEffect s.drive s.regs r' ∧
      r'.lastT = s.regs.ts ∧ r'.lastValid = true ∧ SameDrops s.regs r' ∧ r'.rptr = s.regs.rptr ∧
      (full s.regs = false →
        r'.wptr.toNat = (s.regs.wptr.toNat + 1) % s.cfg.ringN ∧
        Changed s.regs.wg r'.wg (bin2gray r'.wptr) ∧
        (∃ f : BitVec s.cfg.frameW, Memory.read r'.slots s.regs.wptr.toNat = some f ∧
          f.toNat = s.regs.ts.toNat * 2 ^ 17 + s.regs.inS2.toNat) ∧
        ∀ a, a ≠ s.regs.wptr.toNat → Memory.read r'.slots a = Memory.read s.regs.slots a) ∧
      (full s.regs = true → SameProducer s.regs r')

/-- R93, R67, R104: CAP_DROP completes; common part, deadband update, `DROP` one higher and saturating
with its Gray copy; no slot and no cursor. -/
def Obligations.CapDropCounts : Prop :=
  ∀ s : State, s.cfg.valid = true →
    ∃ r' : Regs s.cfg, exec .capDrop s = .next (s.after r') ∧
      CaptureCommonEffect s.drive s.regs r' ∧
      r'.lastT = s.regs.ts ∧ r'.lastValid = true ∧ SameProducer s.regs r' ∧
      r'.rptr = s.regs.rptr ∧
      r'.drop.toNat = min (s.regs.drop.toNat + 1) (2 ^ s.cfg.dropW - 1) ∧
      Changed s.regs.dg r'.dg (bin2gray r'.drop)

/-- R100, R101: DRN_EMPTY and DRN_HOLD complete; they do the common part of R99 and nothing else. -/
def Obligations.DrainWithoutPop : Prop :=
  ∀ (s : State) (i : Instr), s.cfg.valid = true → ((∃ r, i = .drnEmpty r) ∨ i = .drnHold) →
    ∃ r' : Regs s.cfg, exec i s = .next (s.after r') ∧
      DrainCommonEffect s.drive s.regs r' ∧ SameConsumer s.regs r' ∧
      SameSampler s.regs r' ∧ SameDeadband s.regs r' ∧
      (∀ a, Memory.read r'.slots a = Memory.read s.regs.slots a) ∧
      r'.wptr = s.regs.wptr ∧ r'.drop = s.regs.drop

/-- R102, R79: DRN_POP completes; common part, and with a frame visible the read cursor advanced modulo
`RING_N` and its Gray copy with it; no slot is written. The clause for `EMPTY = 1` is the model's own choice
(log entry 10, DESIGN CHOICE): R102 gives DRN_POP only with `OUT_VALID = 1`, and R79's empty case is
DRN_EMPTY. -/
def Obligations.DrnPopDequeues : Prop :=
  ∀ s : State, s.cfg.valid = true →
    ∃ r' : Regs s.cfg, exec .drnPop s = .next (s.after r') ∧
      DrainCommonEffect s.drive s.regs r' ∧
      SameSampler s.regs r' ∧ SameDeadband s.regs r' ∧
      (∀ a, Memory.read r'.slots a = Memory.read s.regs.slots a) ∧
      r'.wptr = s.regs.wptr ∧ r'.drop = s.regs.drop ∧
      (empty s.regs = false →
        r'.rptr.toNat = (s.regs.rptr.toNat + 1) % s.cfg.ringN ∧
        Changed s.regs.rg r'.rg (bin2gray r'.rptr)) ∧
      (empty s.regs = true → SameConsumer s.regs r')

/-- R118: RESET completes; every register at its reset value, the sampling registers drawn, the slots not
written. -/
def Obligations.ResetWritesEveryRegister : Prop :=
  ∀ s : State, s.cfg.valid = true →
    ∃ r' : Regs s.cfg, exec .reset s = .next (s.after r') ∧
      r'.armCnt = 0 ∧ r'.presc = 0 ∧ r'.ts = 0 ∧ r'.lastT = 0 ∧ r'.lastValid = false ∧
      r'.wptr = 0 ∧ r'.wg.src = 0 ∧ r'.rg.s1 = 0 ∧ r'.rg.s2 = 0 ∧ r'.drop = 0 ∧ r'.dg.src = 0 ∧
      r'.rptr = 0 ∧ r'.rg.src = 0 ∧ r'.wg.s1 = 0 ∧ r'.wg.s2 = 0 ∧ r'.dg.s1 = 0 ∧ r'.dg.s2 = 0 ∧
      r'.wg.prev = 0 ∧ r'.wg.chg = false ∧ r'.rg.prev = 0 ∧ r'.rg.chg = false ∧
      r'.dg.prev = 0 ∧ r'.dg.chg = false ∧
      r'.inS1 = s.drive.resetS1 ∧ r'.inS2 = s.drive.resetS2 ∧ r'.inPrev = s.drive.resetPrev ∧
      r'.slots = s.regs.slots

/-- R32, R119: the status signals after RESET; no frame is held or shown and no drop is counted. -/
def Obligations.StatusAfterReset : Prop :=
  ∀ (s : State) (r' : Regs s.cfg), s.cfg.valid = true → exec .reset s = .next (s.after r') →
    armed r' = false ∧ edge r' = false ∧ pass r' = true ∧ full r' = false ∧ outValid r' = false ∧
      outFrame r' = none ∧ outDropped r' = 0 ∧ contents r' = []

/-- R118: a repeated RESET leaves the same registers but for new draws of the sampling registers. -/
def Obligations.RepeatedResetOnlyRedraws : Prop :=
  ∀ (s : State) (r' r'' : Regs s.cfg), exec .reset s = .next (s.after r') →
    exec .reset (s.after r') = .next ((s.after r').after r'') →
    r'' = { r' with
      inS1 := (s.after r').drive.resetS1
      inS2 := (s.after r').drive.resetS2
      inPrev := (s.after r').drive.resetPrev }

/-! ### What every edge does -/

/-- R87, R88, R99, R82: whatever operation it performs, a capture edge does the common part of a capture
step and a drain edge that of a drain step, each synchronizer with its own draw. -/
def Obligations.EveryEdgeDoesItsCommonPart : Prop :=
  ∀ (s : State) (r' : Regs s.cfg), s.drive.rst = .released → step s = .next (s.after r') →
    (s.drive.clock = .capture → CaptureCommonEffect s.drive s.regs r') ∧
      (s.drive.clock = .drain → DrainCommonEffect s.drive s.regs r')

/-- R81: a step that changes a Gray source records the old value and the change; a step of the source's
domain that does not change it changes neither. -/
def Obligations.GraySourcesTrackTheirChanges : Prop :=
  ∀ (s : State) (r' : Regs s.cfg), s.drive.rst = .released → step s = .next (s.after r') →
    (s.drive.clock = .capture →
      Changed s.regs.wg r'.wg r'.wg.src ∧ Changed s.regs.dg r'.dg r'.dg.src) ∧
      (s.drive.clock = .drain →
        Changed s.regs.rg r'.rg r'.rg.src ∧
          r'.wg.src = s.regs.wg.src ∧ r'.dg.src = s.regs.dg.src)

/-- R67: the deadband's state is updated at every accepted edge event, enqueued or dropped, and at no other
capture edge. -/
def Obligations.DeadbandUpdatesOnAcceptance : Prop :=
  ∀ (s : State) (r' : Regs s.cfg), s.drive.rst = .released → s.drive.clock = .capture →
    step s = .next (s.after r') →
    (edge s.regs = true → pass s.regs = true → r'.lastT = s.regs.ts ∧ r'.lastValid = true) ∧
      (¬(edge s.regs = true ∧ pass s.regs = true) → SameDeadband s.regs r')

/-! ### Domains -/

/-- R39, R95: what a capture step does to the capture domain depends on that domain's registers and, of
the drain domain, only on the crossing of `RGRAY`; so does the operation it performs. -/
def Obligations.CaptureDomainIsIsolated : Prop :=
  ∀ (c : Params) (r₁ r₂ r₁' r₂' : Regs c) (d : Drive) (ds : List Drive) (n : Nat),
    d.rst = .released → d.clock = .capture → SameCaptureDomain r₁ r₂ → r₂.rg = r₁.rg →
    step ⟨c, r₁, d :: ds, n⟩ = .next ⟨c, r₁', ds, n + 1⟩ →
    step ⟨c, r₂, d :: ds, n⟩ = .next ⟨c, r₂', ds, n + 1⟩ →
    csel r₁ = csel r₂ ∧ SameCaptureDomain r₁' r₂' ∧ r₂'.rg = r₁'.rg

/-- R39, R103: what a drain step does to the drain domain depends on that domain's registers and, of the
capture domain, only on the crossings of `WGRAY` and `DROP_GRAY`; the frame it shows also on `SLOT[RPTR]`. -/
def Obligations.DrainDomainIsIsolated : Prop :=
  ∀ (c : Params) (r₁ r₂ r₁' r₂' : Regs c) (d : Drive) (ds : List Drive) (n : Nat),
    d.rst = .released → d.clock = .drain →
    r₂.rptr = r₁.rptr → r₂.rg.src = r₁.rg.src → r₂.wg = r₁.wg → r₂.dg = r₁.dg →
    step ⟨c, r₁, d :: ds, n⟩ = .next ⟨c, r₁', ds, n + 1⟩ →
    step ⟨c, r₂, d :: ds, n⟩ = .next ⟨c, r₂', ds, n + 1⟩ →
    (r₂'.rptr = r₁'.rptr ∧ r₂'.rg.src = r₁'.rg.src ∧ r₂'.wg = r₁'.wg ∧ r₂'.dg = r₁'.dg) ∧
      outValid r₁ = outValid r₂ ∧ outDropped r₁ = outDropped r₂ ∧
      (memRead r₂ r₁.rptr = memRead r₁ r₁.rptr → outFrame r₂ = outFrame r₁)

/-- R117, R80, R95, R103: while only drain edges come, every capture-domain register and every slot keeps
its value; while only capture edges come, every drain-domain register does. -/
def Obligations.StoppedClockKeepsItsDomain : Prop :=
  ∀ (s : State) (n k : Nat) (r' : Regs s.cfg) (ds : List Drive),
    s.run n = .next ⟨s.cfg, r', ds, k⟩ →
    ((∀ i ∈ s.operations n, i.isDrain = true) → SameCaptureDomain s.regs r') ∧
      ((∀ i ∈ s.operations n, i.isCapture = true) → SameDrainDomain s.regs r')

/-! ### Invariants -/

/-- R118 with R24 to R31: every block right after reset satisfies the invariant, for every admissible
build, every draw of the sampling registers and every content of the slots. -/
def Obligations.ResetEstablishesInvariant : Prop :=
  (∀ s : State, s.cfg.valid = true → s.JustReset → s.Inv) ∧
    (∀ c : Params, c.valid = true → (State.resetOf c).Inv) ∧ State.reset.Inv

/-- Every step keeps the invariant: Gray copies, the pointer chain through the synchronizers, the order of
the drop count's crossing, canonical slots with every held frame written, nothing before the first
acceptance, time 0 before capture start. -/
def Obligations.StepKeepsInvariant : Prop :=
  ∀ s t : State, s.Inv → step s = .next t → t.Inv

/-- R24, R26, R27: the Gray copies stay the Gray codes of their counters, whatever else the state is. -/
def Obligations.StepKeepsGrayCopies : Prop :=
  ∀ s t : State, GrayCopies s.regs → step s = .next t → GrayCopies t.regs

/-- The slot array stays in the model's canonical form and within the slots that exist (R33, R34; the
list form is the model's, log entry 5). -/
def Obligations.StepKeepsSlotArrayCanonical : Prop :=
  ∀ s t : State, Memory.wf s.regs.slots = true →
    (s.regs.slots.all fun e => decide (e.1 < s.cfg.ringN)) = true → step s = .next t →
    Memory.wf t.regs.slots = true ∧
      (t.regs.slots.all fun e => decide (e.1 < t.cfg.ringN)) = true

/-- R41: the pointer chain holds in every state a run reaches from a reset. It follows from
`ResetEstablishesInvariant` and the step lemma `StepKeepsInvariant`. -/
def Obligations.ReachablePointerChain : Prop :=
  ∀ (s t : State) (n : Nat), s.cfg.valid = true → s.JustReset → s.run n = .next t →
    PointerChain t.regs

/-- R41, R83: no step but RESET moves a domain's view of the other's cursor backward, or past the cursor. -/
def Obligations.ViewsNeverMoveBackward : Prop :=
  ∀ (s : State) (r' : Regs s.cfg), s.Inv → s.drive.rst = .released → step s = .next (s.after r') →
    ahead (readView s.regs) (readView r') ≤ ahead (readView s.regs) s.regs.rptr ∧
      ahead (writeView s.regs) (writeView r') ≤ ahead (writeView s.regs) s.regs.wptr

/-! ### The ring as a queue -/

/-- R44, R43, R42: the frames held are a first-in first-out queue: a step appends the frame it pushes and
removes the frame it pops, which is the oldest; RESET empties it. -/
def Obligations.RingIsAQueue : Prop :=
  ∀ (s : State) (r' : Regs s.cfg), s.Inv → step s = .next (s.after r') →
    (s.drive.rst = .both → contents r' = []) ∧
      (s.drive.rst = .released →
        contents s.regs ++ s.pushed.toList = s.popped.toList ++ contents r')

/-- R44, R43: over any run without a reset, what was held and what was pushed is what was popped and what
is held, in order: each frame is popped once, unchanged, in push order. -/
def Obligations.RunsAreFirstInFirstOut : Prop :=
  ∀ (s t : State) (n : Nat), s.Inv → s.run n = .next t → Instr.reset ∉ s.operations n →
    (contents s.regs).map BitVec.toNat ++ s.pushes n =
      s.pops n ++ (contents t.regs).map BitVec.toNat

/-- R43, R44: from a reset on, the frames popped are the first of the frames pushed since that reset, and
the ring holds the rest. It follows from the step lemma `RingIsAQueue`. -/
def Obligations.PoppedFramesWerePushedSinceReset : Prop :=
  ∀ (s t : State) (n : Nat), s.cfg.valid = true → s.JustReset → s.run n = .next t →
    Instr.reset ∉ s.operations n →
    s.pops n <+: s.pushes n ∧ (s.pushes n).length = (s.pops n).length + occupancy t.regs

/-- R42: a slot is written only by CAP_PUSH, with `FULL = 0`, at `WPTR`, where no frame not yet popped
stands; so every frame held stays as it is, and a dropped frame writes no slot. -/
def Obligations.NoFalseOverwrite : Prop :=
  ∀ (s : State) (r' : Regs s.cfg), s.Inv → step s = .next (s.after r') →
    (∀ k, k < occupancy s.regs →
      Memory.read r'.slots (liveIndex s.regs k).toNat =
        Memory.read s.regs.slots (liveIndex s.regs k).toNat) ∧
    (∀ a, Memory.read r'.slots a ≠ Memory.read s.regs.slots a →
      s.selectVec = .csel 0b1110#4 ∧ full s.regs = false ∧ a = s.regs.wptr.toNat) ∧
    (full s.regs = false → ∀ k, k < occupancy s.regs → liveIndex s.regs k ≠ s.regs.wptr)

/-- R77: a push needs fewer than `RING_N - 1` frames held and adds one, a pop needs one and takes it,
RESET leaves none, and no other operation changes the number. -/
def Obligations.FrameCountFollowsOperations : Prop :=
  ∀ (s : State) (r' : Regs s.cfg) (i : Instr), s.Inv → decode s.selectVec = .ok i →
    step s = .next (s.after r') →
    occupancy r' ≤ s.cfg.ringN - 1 ∧
      (i = .capPush → occupancy s.regs < s.cfg.ringN - 1 ∧ occupancy r' = occupancy s.regs + 1) ∧
      (i = .drnPop → occupancy s.regs = occupancy r' + 1) ∧
      (i = .reset → occupancy r' = 0) ∧
      (i ≠ .capPush → i ≠ .drnPop → i ≠ .reset → occupancy r' = occupancy s.regs)

/-- R75, R76: `FULL` is never 0 when the ring is truly full, and `OUT_VALID` never 1 when it is truly
empty. -/
def Obligations.FullAndValidAreConservative : Prop :=
  ∀ s : State, s.Inv →
    (inc s.regs.wptr = s.regs.rptr → full s.regs = true) ∧
      (s.regs.rptr = s.regs.wptr → outValid s.regs = false)

/-- R97: with `OUT_VALID = 1`, `OUT_FRAME` is `SLOT[RPTR]`, the oldest frame held; with `OUT_VALID = 0` it
has no value; while it is shown and neither popped nor reset, `OUT_VALID` stays 1 and `OUT_FRAME` the
same. -/
def Obligations.OutFrameIsHeld : Prop :=
  (∀ s : State, s.Inv → outValid s.regs = true →
    outFrame s.regs = Memory.read s.regs.slots s.regs.rptr.toNat ∧
      outFrame s.regs = (contents s.regs).head?) ∧
  (∀ (s : State) (r' : Regs s.cfg), s.Inv → step s = .next (s.after r') →
    s.drive.rst = .released → s.selectVec ≠ .dsel 0b11#2 → outValid s.regs = true →
    outValid r' = true ∧ outFrame r' = outFrame s.regs) ∧
    ∀ (c : Params) (r : Regs c), outValid r = false → outFrame r = none

/-- R84: from an empty ring whose freed slots the producer sees, `M` acceptances without a pop or reset
enqueue `min M (RING_N - 1)` frames and raise `DROP` by the others, up to its maximum. -/
def Obligations.OverflowIsConserved : Prop :=
  ∀ (s t : State) (n : Nat), s.Inv → readView s.regs = s.regs.rptr → occupancy s.regs = 0 →
    s.run n = .next t → Instr.reset ∉ s.operations n → Instr.drnPop ∉ s.operations n →
    (s.pushes n).length = min ((s.operations n).countP Instr.accepts) (s.cfg.ringN - 1) ∧
      t.regs.drop.toNat =
        min (s.regs.drop.toNat + ((s.operations n).countP Instr.accepts - (s.cfg.ringN - 1)))
          (2 ^ s.cfg.dropW - 1)

/-- R26, R98: no step but RESET lowers `DROP` or `OUT_DROPPED`, and `OUT_DROPPED` never exceeds `DROP`. -/
def Obligations.DropCountNeverDecreases : Prop :=
  ∀ (s : State) (r' : Regs s.cfg), s.Inv → s.drive.rst = .released → step s = .next (s.after r') →
    s.regs.drop.toNat ≤ r'.drop.toNat ∧
      (outDropped s.regs).toNat ≤ (outDropped r').toNat ∧
      (outDropped r').toNat ≤ r'.drop.toNat

/-! ### Time and latency -/

/-- Counted from R20 and R22 with R21, R85, R88 and R120: `k` capture steps after a reset `ARM_CNT` is
`min(k, 3)`, the block is armed iff `k` is at least 3, and `TS` and `PRESC` count the armed steps, modulo
`2^TS_W`, whatever drain steps lie between. Its step lemma is `EveryEdgeDoesItsCommonPart`. -/
def Obligations.TimestampCountsArmedEdges : Prop :=
  ∀ (s t : State) (n k : Nat), s.cfg.valid = true → s.JustReset → s.run n = .next t →
    Instr.reset ∉ s.operations n → (s.operations n).countP Instr.isCapture = k →
    t.regs.armCnt.toNat = min k 3 ∧ (armed t.regs = true ↔ 3 ≤ k) ∧
      t.regs.ts.toNat = (k - 3) / s.cfg.ticksPerUs % 2 ^ s.cfg.tsW ∧
      t.regs.presc.toNat = (k - 3) % s.cfg.ticksPerUs

/-- R129, R87: the pins sampled by a capture step are the snapshot two capture steps later, against the
pins of the step before as the previous one, whatever drain steps lie between. -/
def Obligations.PinsReachTheSnapshotInTwoSteps : Prop :=
  ∀ (s t : State) (n : Nat), s.drive.rst = .released → s.drive.clock = .capture →
    s.run (n + 1) = .next t → Instr.reset ∉ s.operations (n + 1) →
    (s.operations (n + 1)).countP Instr.isCapture = 2 →
    snapshot t.regs = s.drive.lines ∧ t.regs.inPrev = s.regs.inS1 ∧
      (armed t.regs = true → edge t.regs = (s.drive.lines != s.regs.inS1))

/-- R83, R130, R131: a synchronizer shows its source after two samples, or three when the first drew the
previous value. -/
def Obligations.SynchronizerSettles : Prop :=
  ∀ (w : Nat) (x : Crossing w) (o₁ o₂ o₃ : Bool),
    ((x.chg = false ∨ o₁ = false) → ((x.sample o₁).sample o₂).s2 = x.src) ∧
      (((x.sample o₁).sample o₂).sample o₃).s2 = x.src

/-- R83, R130, R131: once a source stands still, three edges of the receiving domain make the view exact,
whatever the draws and whatever the other domain does meanwhile. -/
def Obligations.ViewsBecomeExact : Prop :=
  ∀ (s t : State) (n : Nat), s.Inv → s.run n = .next t → Instr.reset ∉ s.operations n →
    (Instr.drnPop ∉ s.operations n → 3 ≤ (s.operations n).countP Instr.isCapture →
      readView t.regs = t.regs.rptr) ∧
    (Instr.capPush ∉ s.operations n → 3 ≤ (s.operations n).countP Instr.isDrain →
      writeView t.regs = t.regs.wptr) ∧
    (Instr.capDrop ∉ s.operations n → 3 ≤ (s.operations n).countP Instr.isDrain →
      outDropped t.regs = t.regs.drop)

/-- R130: a held frame is shown after three drain edges at the latest, whatever the producer does. -/
def Obligations.HeldFrameBecomesVisible : Prop :=
  ∀ (s t : State) (n : Nat), s.Inv → 0 < occupancy s.regs → s.run n = .next t →
    Instr.reset ∉ s.operations n → Instr.drnPop ∉ s.operations n →
    3 ≤ (s.operations n).countP Instr.isDrain → outValid t.regs = true
end

