-- ==== Sys2Proof/Laws/Memory.lean ====
section
/-! SUPPORT. The laws of the slot array: a read after a write to the same slot gives the value written, a
write leaves every other slot alone, and every write keeps the canonical form. -/

namespace Sys2Proof.Machine

@[simp] theorem Memory.read_nil {w : Nat} (i : Nat) : Memory.read ([] : Memory w) i = none := rfl

theorem Memory.read_write_same {w : Nat} (m : Memory w) (i : Nat) (v : BitVec w) :
    Memory.read (Memory.write m i v) i = some v := by
  induction m with
  | nil => simp [Memory.write, Memory.read]
  | cons e rest ih =>
    obtain ⟨k, u⟩ := e
    by_cases h : i < k
    · simp [Memory.write, Memory.read, h]
    · by_cases hk : i = k
      · simp [Memory.write, Memory.read, hk]
      · simp [Memory.write, Memory.read, h, hk, ih]

theorem Memory.read_write_other {w : Nat} (m : Memory w) (i j : Nat) (v : BitVec w) (h : j ≠ i) :
    Memory.read (Memory.write m i v) j = Memory.read m j := by
  induction m with
  | nil => simp [Memory.write, Memory.read, h]
  | cons e rest ih =>
    obtain ⟨k, u⟩ := e
    by_cases hlt : i < k
    · simp [Memory.write, Memory.read, hlt, h]
    · by_cases hk : i = k
      · subst hk; simp [Memory.write, Memory.read, h]
      · simp [Memory.write, Memory.read, hlt, hk, ih]

/-- A property of the indices that holds of every entry, and of the index written, holds after the
write. -/
theorem Memory.all_write {w : Nat} (p : Nat → Bool) (m : Memory w) (i : Nat) (v : BitVec w)
    (hm : (m.all fun e => p e.1) = true) (hi : p i = true) :
    ((Memory.write m i v).all fun e => p e.1) = true := by
  induction m with
  | nil => simp [Memory.write, hi]
  | cons e rest ih =>
    obtain ⟨k, u⟩ := e
    simp only [List.all_cons, Bool.and_eq_true] at hm
    by_cases hlt : i < k
    · simp [Memory.write, hlt, hi, hm.1, hm.2]
    · by_cases hk : i = k
      · simp [Memory.write, hk, hm.1, hm.2]
      · simp only [Memory.write, hlt, hk, if_false, List.all_cons, hm.1, ih hm.2, Bool.and_self]

/-- A write keeps the canonical form. -/
theorem Memory.wf_write {w : Nat} (m : Memory w) (i : Nat) (v : BitVec w) (h : Memory.wf m = true) :
    Memory.wf (Memory.write m i v) = true := by
  induction m with
  | nil => simp [Memory.write, Memory.wf]
  | cons e rest ih =>
    obtain ⟨k, u⟩ := e
    simp only [Memory.wf, Bool.and_eq_true] at h
    by_cases hlt : i < k
    · have hrest : (rest.all fun e => decide (i < e.1)) = true := by
        simp only [List.all_eq_true, decide_eq_true_eq] at h ⊢
        exact fun e he => lt_trans hlt (h.1 e he)
      simp [Memory.write, hlt, Memory.wf, hrest, h.1, h.2]
    · by_cases hk : i = k
      · simp [Memory.write, hk, Memory.wf, h.1, h.2]
      · have hki : decide (k < i) = true := by simp; omega
        simp only [Memory.write, hlt, hk, if_false, Memory.wf, Bool.and_eq_true]
        exact ⟨Memory.all_write (fun j => decide (k < j)) rest i v h.1 hki, ih h.2⟩

/-- The slot array after reset is in canonical form. -/
theorem Memory.wf_reset (c : Params) : Memory.wf (State.resetOf c).regs.slots = true := rfl

/-- A slot write of a block: the slot written holds the word, every other slot what it held. -/
theorem memWrite_read {c : Params} (r : Regs c) (i : BitVec c.ptrW) (v : BitVec c.frameW) (a : Nat) :
    Memory.read (memWrite r i v).slots a =
      if a = i.toNat then some v else Memory.read r.slots a := by
  by_cases h : a = i.toNat
  · subst h; simpa [memWrite] using Memory.read_write_same r.slots i.toNat v
  · simpa [memWrite, h] using Memory.read_write_other r.slots i.toNat a v h

end Sys2Proof.Machine
end

