-- ==== Sys2Proof/Laws/State.lean ====
section
/-! SUPPORT. One lemma per field per update, each true by rfl, so that no proof unfolds a record update. -/

namespace Sys2Proof.Machine

/-! ### The state after a step -/

@[simp] theorem State.after_cfg (s : State) (r : Regs s.cfg) : (s.after r).cfg = s.cfg := rfl
@[simp] theorem State.after_regs (s : State) (r : Regs s.cfg) : (s.after r).regs = r := rfl
@[simp] theorem State.after_stimulus (s : State) (r : Regs s.cfg) :
    (s.after r).stimulus = s.stimulus.tail := rfl
@[simp] theorem State.after_drawn (s : State) (r : Regs s.cfg) :
    (s.after r).drawn = s.drawn + 1 := rfl
@[simp] theorem State.resetOf_cfg (c : Params) : (State.resetOf c).cfg = c := rfl
@[simp] theorem State.resetOf_regs (c : Params) :
    (State.resetOf c).regs = Regs.resetWith c 0 0 0 [] := rfl
@[simp] theorem State.drive_cons (c : Params) (r : Regs c) (d : Drive) (ds : List Drive) (n : Nat) :
    State.drive ⟨c, r, d :: ds, n⟩ = d := rfl
@[simp] theorem State.drive_nil (c : Params) (r : Regs c) (n : Nat) :
    State.drive ⟨c, r, [], n⟩ = Config.environment n := rfl

/-! ### A crossing after a sample and after reset -/

@[simp] theorem Crossing.sample_src {w : Nat} (x : Crossing w) (o : Bool) :
    (x.sample o).src = x.src := rfl
@[simp] theorem Crossing.sample_prev {w : Nat} (x : Crossing w) (o : Bool) :
    (x.sample o).prev = x.prev := rfl
@[simp] theorem Crossing.sample_chg {w : Nat} (x : Crossing w) (o : Bool) :
    (x.sample o).chg = false := rfl
@[simp] theorem Crossing.sample_s1 {w : Nat} (x : Crossing w) (o : Bool) :
    (x.sample o).s1 = if x.chg && o then x.prev else x.src := rfl
@[simp] theorem Crossing.sample_s2 {w : Nat} (x : Crossing w) (o : Bool) :
    (x.sample o).s2 = x.s1 := rfl
@[simp] theorem Crossing.reset_src (w : Nat) : (Crossing.reset w).src = 0#w := rfl
@[simp] theorem Crossing.reset_prev (w : Nat) : (Crossing.reset w).prev = 0#w := rfl
@[simp] theorem Crossing.reset_chg (w : Nat) : (Crossing.reset w).chg = false := rfl
@[simp] theorem Crossing.reset_s1 (w : Nat) : (Crossing.reset w).s1 = 0#w := rfl
@[simp] theorem Crossing.reset_s2 (w : Nat) : (Crossing.reset w).s2 = 0#w := rfl

/-! ### The common part of a capture step -/

@[simp] theorem captureCommon_inS1 {c : Params} (d : Drive) (r : Regs c) :
    (captureCommon d r).inS1 = d.lines := rfl
@[simp] theorem captureCommon_inS2 {c : Params} (d : Drive) (r : Regs c) :
    (captureCommon d r).inS2 = r.inS1 := rfl
@[simp] theorem captureCommon_inPrev {c : Params} (d : Drive) (r : Regs c) :
    (captureCommon d r).inPrev = r.inS2 := rfl
@[simp] theorem captureCommon_armCnt {c : Params} (d : Drive) (r : Regs c) :
    (captureCommon d r).armCnt = nextArmCnt r := rfl
@[simp] theorem captureCommon_presc {c : Params} (d : Drive) (r : Regs c) :
    (captureCommon d r).presc = nextPresc r := rfl
@[simp] theorem captureCommon_ts {c : Params} (d : Drive) (r : Regs c) :
    (captureCommon d r).ts = nextTs r := rfl
@[simp] theorem captureCommon_lastT {c : Params} (d : Drive) (r : Regs c) :
    (captureCommon d r).lastT = r.lastT := rfl
@[simp] theorem captureCommon_lastValid {c : Params} (d : Drive) (r : Regs c) :
    (captureCommon d r).lastValid = r.lastValid := rfl
@[simp] theorem captureCommon_wptr {c : Params} (d : Drive) (r : Regs c) :
    (captureCommon d r).wptr = r.wptr := rfl
@[simp] theorem captureCommon_wg {c : Params} (d : Drive) (r : Regs c) :
    (captureCommon d r).wg = r.wg := rfl
@[simp] theorem captureCommon_drop {c : Params} (d : Drive) (r : Regs c) :
    (captureCommon d r).drop = r.drop := rfl
@[simp] theorem captureCommon_dg {c : Params} (d : Drive) (r : Regs c) :
    (captureCommon d r).dg = r.dg := rfl
@[simp] theorem captureCommon_rptr {c : Params} (d : Drive) (r : Regs c) :
    (captureCommon d r).rptr = r.rptr := rfl
@[simp] theorem captureCommon_rg {c : Params} (d : Drive) (r : Regs c) :
    (captureCommon d r).rg = r.rg.sample d.rgOld := rfl
@[simp] theorem captureCommon_slots {c : Params} (d : Drive) (r : Regs c) :
    (captureCommon d r).slots = r.slots := rfl

/-! ### The common part of a drain step -/

@[simp] theorem drainCommon_inS1 {c : Params} (d : Drive) (r : Regs c) :
    (drainCommon d r).inS1 = r.inS1 := rfl
@[simp] theorem drainCommon_inS2 {c : Params} (d : Drive) (r : Regs c) :
    (drainCommon d r).inS2 = r.inS2 := rfl
@[simp] theorem drainCommon_inPrev {c : Params} (d : Drive) (r : Regs c) :
    (drainCommon d r).inPrev = r.inPrev := rfl
@[simp] theorem drainCommon_armCnt {c : Params} (d : Drive) (r : Regs c) :
    (drainCommon d r).armCnt = r.armCnt := rfl
@[simp] theorem drainCommon_presc {c : Params} (d : Drive) (r : Regs c) :
    (drainCommon d r).presc = r.presc := rfl
@[simp] theorem drainCommon_ts {c : Params} (d : Drive) (r : Regs c) :
    (drainCommon d r).ts = r.ts := rfl
@[simp] theorem drainCommon_lastT {c : Params} (d : Drive) (r : Regs c) :
    (drainCommon d r).lastT = r.lastT := rfl
@[simp] theorem drainCommon_lastValid {c : Params} (d : Drive) (r : Regs c) :
    (drainCommon d r).lastValid = r.lastValid := rfl
@[simp] theorem drainCommon_wptr {c : Params} (d : Drive) (r : Regs c) :
    (drainCommon d r).wptr = r.wptr := rfl
@[simp] theorem drainCommon_wg {c : Params} (d : Drive) (r : Regs c) :
    (drainCommon d r).wg = r.wg.sample d.wgOld := rfl
@[simp] theorem drainCommon_drop {c : Params} (d : Drive) (r : Regs c) :
    (drainCommon d r).drop = r.drop := rfl
@[simp] theorem drainCommon_dg {c : Params} (d : Drive) (r : Regs c) :
    (drainCommon d r).dg = r.dg.sample d.dgOld := rfl
@[simp] theorem drainCommon_rptr {c : Params} (d : Drive) (r : Regs c) :
    (drainCommon d r).rptr = r.rptr := rfl
@[simp] theorem drainCommon_rg {c : Params} (d : Drive) (r : Regs c) :
    (drainCommon d r).rg = r.rg := rfl
@[simp] theorem drainCommon_slots {c : Params} (d : Drive) (r : Regs c) :
    (drainCommon d r).slots = r.slots := rfl

/-! ### The deadband update -/

@[simp] theorem deadbandUpdate_inS1 {c : Params} (r : Regs c) :
    (deadbandUpdate r).inS1 = r.inS1 := rfl
@[simp] theorem deadbandUpdate_inS2 {c : Params} (r : Regs c) :
    (deadbandUpdate r).inS2 = r.inS2 := rfl
@[simp] theorem deadbandUpdate_inPrev {c : Params} (r : Regs c) :
    (deadbandUpdate r).inPrev = r.inPrev := rfl
@[simp] theorem deadbandUpdate_armCnt {c : Params} (r : Regs c) :
    (deadbandUpdate r).armCnt = r.armCnt := rfl
@[simp] theorem deadbandUpdate_presc {c : Params} (r : Regs c) :
    (deadbandUpdate r).presc = r.presc := rfl
@[simp] theorem deadbandUpdate_ts {c : Params} (r : Regs c) :
    (deadbandUpdate r).ts = r.ts := rfl
@[simp] theorem deadbandUpdate_lastT {c : Params} (r : Regs c) :
    (deadbandUpdate r).lastT = r.ts := rfl
@[simp] theorem deadbandUpdate_lastValid {c : Params} (r : Regs c) :
    (deadbandUpdate r).lastValid = true := rfl
@[simp] theorem deadbandUpdate_wptr {c : Params} (r : Regs c) :
    (deadbandUpdate r).wptr = r.wptr := rfl
@[simp] theorem deadbandUpdate_wg {c : Params} (r : Regs c) :
    (deadbandUpdate r).wg = r.wg := rfl
@[simp] theorem deadbandUpdate_drop {c : Params} (r : Regs c) :
    (deadbandUpdate r).drop = r.drop := rfl
@[simp] theorem deadbandUpdate_dg {c : Params} (r : Regs c) :
    (deadbandUpdate r).dg = r.dg := rfl
@[simp] theorem deadbandUpdate_rptr {c : Params} (r : Regs c) :
    (deadbandUpdate r).rptr = r.rptr := rfl
@[simp] theorem deadbandUpdate_rg {c : Params} (r : Regs c) :
    (deadbandUpdate r).rg = r.rg := rfl
@[simp] theorem deadbandUpdate_slots {c : Params} (r : Regs c) :
    (deadbandUpdate r).slots = r.slots := rfl

/-! ### The drop count -/

@[simp] theorem countDrop_inS1 {c : Params} (r : Regs c) :
    (countDrop r).inS1 = r.inS1 := rfl
@[simp] theorem countDrop_inS2 {c : Params} (r : Regs c) :
    (countDrop r).inS2 = r.inS2 := rfl
@[simp] theorem countDrop_inPrev {c : Params} (r : Regs c) :
    (countDrop r).inPrev = r.inPrev := rfl
@[simp] theorem countDrop_armCnt {c : Params} (r : Regs c) :
    (countDrop r).armCnt = r.armCnt := rfl
@[simp] theorem countDrop_presc {c : Params} (r : Regs c) :
    (countDrop r).presc = r.presc := rfl
@[simp] theorem countDrop_ts {c : Params} (r : Regs c) :
    (countDrop r).ts = r.ts := rfl
@[simp] theorem countDrop_lastT {c : Params} (r : Regs c) :
    (countDrop r).lastT = r.lastT := rfl
@[simp] theorem countDrop_lastValid {c : Params} (r : Regs c) :
    (countDrop r).lastValid = r.lastValid := rfl
@[simp] theorem countDrop_wptr {c : Params} (r : Regs c) :
    (countDrop r).wptr = r.wptr := rfl
@[simp] theorem countDrop_wg {c : Params} (r : Regs c) :
    (countDrop r).wg = r.wg := rfl
@[simp] theorem countDrop_drop {c : Params} (r : Regs c) :
    (countDrop r).drop = sat c.dropW (r.drop.toNat + 1) := rfl
@[simp] theorem countDrop_dg {c : Params} (r : Regs c) :
    (countDrop r).dg = r.dg.write (bin2gray (sat c.dropW (r.drop.toNat + 1))) := rfl
@[simp] theorem countDrop_rptr {c : Params} (r : Regs c) :
    (countDrop r).rptr = r.rptr := rfl
@[simp] theorem countDrop_rg {c : Params} (r : Regs c) :
    (countDrop r).rg = r.rg := rfl
@[simp] theorem countDrop_slots {c : Params} (r : Regs c) :
    (countDrop r).slots = r.slots := rfl

/-! ### A slot write -/

@[simp] theorem memWrite_inS1 {c : Params} (r : Regs c) (i : BitVec c.ptrW) (v : BitVec c.frameW) :
    (memWrite r i v).inS1 = r.inS1 := rfl
@[simp] theorem memWrite_inS2 {c : Params} (r : Regs c) (i : BitVec c.ptrW) (v : BitVec c.frameW) :
    (memWrite r i v).inS2 = r.inS2 := rfl
@[simp] theorem memWrite_inPrev {c : Params} (r : Regs c) (i : BitVec c.ptrW) (v : BitVec c.frameW) :
    (memWrite r i v).inPrev = r.inPrev := rfl
@[simp] theorem memWrite_armCnt {c : Params} (r : Regs c) (i : BitVec c.ptrW) (v : BitVec c.frameW) :
    (memWrite r i v).armCnt = r.armCnt := rfl
@[simp] theorem memWrite_presc {c : Params} (r : Regs c) (i : BitVec c.ptrW) (v : BitVec c.frameW) :
    (memWrite r i v).presc = r.presc := rfl
@[simp] theorem memWrite_ts {c : Params} (r : Regs c) (i : BitVec c.ptrW) (v : BitVec c.frameW) :
    (memWrite r i v).ts = r.ts := rfl
@[simp] theorem memWrite_lastT {c : Params} (r : Regs c) (i : BitVec c.ptrW) (v : BitVec c.frameW) :
    (memWrite r i v).lastT = r.lastT := rfl
@[simp] theorem memWrite_lastValid {c : Params} (r : Regs c) (i : BitVec c.ptrW) (v : BitVec c.frameW) :
    (memWrite r i v).lastValid = r.lastValid := rfl
@[simp] theorem memWrite_wptr {c : Params} (r : Regs c) (i : BitVec c.ptrW) (v : BitVec c.frameW) :
    (memWrite r i v).wptr = r.wptr := rfl
@[simp] theorem memWrite_wg {c : Params} (r : Regs c) (i : BitVec c.ptrW) (v : BitVec c.frameW) :
    (memWrite r i v).wg = r.wg := rfl
@[simp] theorem memWrite_drop {c : Params} (r : Regs c) (i : BitVec c.ptrW) (v : BitVec c.frameW) :
    (memWrite r i v).drop = r.drop := rfl
@[simp] theorem memWrite_dg {c : Params} (r : Regs c) (i : BitVec c.ptrW) (v : BitVec c.frameW) :
    (memWrite r i v).dg = r.dg := rfl
@[simp] theorem memWrite_rptr {c : Params} (r : Regs c) (i : BitVec c.ptrW) (v : BitVec c.frameW) :
    (memWrite r i v).rptr = r.rptr := rfl
@[simp] theorem memWrite_rg {c : Params} (r : Regs c) (i : BitVec c.ptrW) (v : BitVec c.frameW) :
    (memWrite r i v).rg = r.rg := rfl
@[simp] theorem memWrite_slots {c : Params} (r : Regs c) (i : BitVec c.ptrW) (v : BitVec c.frameW) :
    (memWrite r i v).slots = Memory.write r.slots i.toNat v := rfl

/-! ### The registers after reset -/

@[simp] theorem Regs.resetWith_inS1 (c : Params) (a b e : Lines) (m : Memory c.frameW) :
    (Regs.resetWith c a b e m).inS1 = a := rfl
@[simp] theorem Regs.resetWith_inS2 (c : Params) (a b e : Lines) (m : Memory c.frameW) :
    (Regs.resetWith c a b e m).inS2 = b := rfl
@[simp] theorem Regs.resetWith_inPrev (c : Params) (a b e : Lines) (m : Memory c.frameW) :
    (Regs.resetWith c a b e m).inPrev = e := rfl
@[simp] theorem Regs.resetWith_armCnt (c : Params) (a b e : Lines) (m : Memory c.frameW) :
    (Regs.resetWith c a b e m).armCnt = 0 := rfl
@[simp] theorem Regs.resetWith_presc (c : Params) (a b e : Lines) (m : Memory c.frameW) :
    (Regs.resetWith c a b e m).presc = 0 := rfl
@[simp] theorem Regs.resetWith_ts (c : Params) (a b e : Lines) (m : Memory c.frameW) :
    (Regs.resetWith c a b e m).ts = 0 := rfl
@[simp] theorem Regs.resetWith_lastT (c : Params) (a b e : Lines) (m : Memory c.frameW) :
    (Regs.resetWith c a b e m).lastT = 0 := rfl
@[simp] theorem Regs.resetWith_lastValid (c : Params) (a b e : Lines) (m : Memory c.frameW) :
    (Regs.resetWith c a b e m).lastValid = false := rfl
@[simp] theorem Regs.resetWith_wptr (c : Params) (a b e : Lines) (m : Memory c.frameW) :
    (Regs.resetWith c a b e m).wptr = 0 := rfl
@[simp] theorem Regs.resetWith_wg (c : Params) (a b e : Lines) (m : Memory c.frameW) :
    (Regs.resetWith c a b e m).wg = Crossing.reset _ := rfl
@[simp] theorem Regs.resetWith_drop (c : Params) (a b e : Lines) (m : Memory c.frameW) :
    (Regs.resetWith c a b e m).drop = 0 := rfl
@[simp] theorem Regs.resetWith_dg (c : Params) (a b e : Lines) (m : Memory c.frameW) :
    (Regs.resetWith c a b e m).dg = Crossing.reset _ := rfl
@[simp] theorem Regs.resetWith_rptr (c : Params) (a b e : Lines) (m : Memory c.frameW) :
    (Regs.resetWith c a b e m).rptr = 0 := rfl
@[simp] theorem Regs.resetWith_rg (c : Params) (a b e : Lines) (m : Memory c.frameW) :
    (Regs.resetWith c a b e m).rg = Crossing.reset _ := rfl
@[simp] theorem Regs.resetWith_slots (c : Params) (a b e : Lines) (m : Memory c.frameW) :
    (Regs.resetWith c a b e m).slots = m := rfl

/-! ### RESET -/

@[simp] theorem resetRegs_inS1 {c : Params} (d : Drive) (r : Regs c) :
    (resetRegs d r).inS1 = d.resetS1 := rfl
@[simp] theorem resetRegs_inS2 {c : Params} (d : Drive) (r : Regs c) :
    (resetRegs d r).inS2 = d.resetS2 := rfl
@[simp] theorem resetRegs_inPrev {c : Params} (d : Drive) (r : Regs c) :
    (resetRegs d r).inPrev = d.resetPrev := rfl
@[simp] theorem resetRegs_armCnt {c : Params} (d : Drive) (r : Regs c) :
    (resetRegs d r).armCnt = 0 := rfl
@[simp] theorem resetRegs_presc {c : Params} (d : Drive) (r : Regs c) :
    (resetRegs d r).presc = 0 := rfl
@[simp] theorem resetRegs_ts {c : Params} (d : Drive) (r : Regs c) :
    (resetRegs d r).ts = 0 := rfl
@[simp] theorem resetRegs_lastT {c : Params} (d : Drive) (r : Regs c) :
    (resetRegs d r).lastT = 0 := rfl
@[simp] theorem resetRegs_lastValid {c : Params} (d : Drive) (r : Regs c) :
    (resetRegs d r).lastValid = false := rfl
@[simp] theorem resetRegs_wptr {c : Params} (d : Drive) (r : Regs c) :
    (resetRegs d r).wptr = 0 := rfl
@[simp] theorem resetRegs_wg {c : Params} (d : Drive) (r : Regs c) :
    (resetRegs d r).wg = Crossing.reset _ := rfl
@[simp] theorem resetRegs_drop {c : Params} (d : Drive) (r : Regs c) :
    (resetRegs d r).drop = 0 := rfl
@[simp] theorem resetRegs_dg {c : Params} (d : Drive) (r : Regs c) :
    (resetRegs d r).dg = Crossing.reset _ := rfl
@[simp] theorem resetRegs_rptr {c : Params} (d : Drive) (r : Regs c) :
    (resetRegs d r).rptr = 0 := rfl
@[simp] theorem resetRegs_rg {c : Params} (d : Drive) (r : Regs c) :
    (resetRegs d r).rg = Crossing.reset _ := rfl
@[simp] theorem resetRegs_slots {c : Params} (d : Drive) (r : Regs c) :
    (resetRegs d r).slots = r.slots := rfl

end Sys2Proof.Machine
end

