-- ==== Sys2Proof/Laws/Ops.lean ====
section
/-! SUPPORT. What each shared operation can do, said once: proofs cite these instead of unfolding the
operation. -/

namespace Sys2Proof.Machine

/-! ### Gray code, bit by bit -/

theorem inc_toNat {w : Nat} (p : BitVec w) : (inc p).toNat = (p.toNat + 1) % 2 ^ w := by
  simp [inc, BitVec.toNat_add]

theorem bin2gray_getLsbD {w : Nat} (b : BitVec w) (i : Nat) :
    (bin2gray b).getLsbD i = (b.getLsbD i ^^ b.getLsbD (1 + i)) := by
  simp [bin2gray]

theorem xorShifts_succ_getLsbD {w : Nat} (g : BitVec w) (n i : Nat) :
    (xorShifts g (n + 1)).getLsbD i = ((xorShifts g n).getLsbD i ^^ g.getLsbD (n + i)) := by
  simp [xorShifts]

@[simp] theorem bin2gray_zero (w : Nat) : bin2gray (0#w) = 0#w := by simp [bin2gray]

theorem xorShifts_zero (w n : Nat) : xorShifts (0#w) n = 0#w := by
  induction n with
  | zero => rfl
  | succ n ih => simp [xorShifts, ih]

@[simp] theorem gray2bin_zero (w : Nat) : gray2bin (0#w) = 0#w := xorShifts_zero w w

theorem sat_toNat (w x : Nat) : (sat w x).toNat = min x (2 ^ w - 1) := by
  have : 0 < 2 ^ w := Nat.two_pow_pos w
  simp only [sat, BitVec.toNat_ofNat]
  exact Nat.mod_eq_of_lt (by omega)

/-! ### Crossings -/

/-- What a write to a Gray source does (R81). -/
theorem Crossing.write_changed {w : Nat} (x : Crossing w) (v : BitVec w) :
    Changed x (x.write v) v := by
  unfold Crossing.write
  split
  · rename_i h; exact ⟨h.symm, fun h' => absurd h h', fun _ => ⟨rfl, rfl⟩, rfl, rfl⟩
  · rename_i h; exact ⟨rfl, fun _ => ⟨rfl, rfl⟩, fun h' => absurd h' h, rfl, rfl⟩

/-- What a receiving edge does (R82). -/
theorem Crossing.sample_sampled {w : Nat} (x : Crossing w) (o : Bool) :
    Sampled x (x.sample o) o := by
  refine ⟨rfl, ?_, ?_, rfl, rfl, rfl⟩ <;> intro h <;> simp [h]

/-! ### Counters -/

/-- `ARM_CNT` counts up and stays at 3 (R87). -/
theorem nextArmCnt_toNat {c : Params} (r : Regs c) :
    (nextArmCnt r).toNat = min (r.armCnt.toNat + 1) 3 := by
  simp only [nextArmCnt, BitVec.toNat_ofNat]
  exact Nat.mod_eq_of_lt (by omega)

/-- The three things a capture step can do to the prescaler and the timestamp (R88). -/
theorem time_cases {c : Params} (r : Regs c) :
    (armed r = false ∧ nextPresc r = r.presc ∧ nextTs r = r.ts) ∨
      (armed r = true ∧ r.presc.toNat + 1 = c.ticksPerUs ∧ nextPresc r = 0 ∧ nextTs r = r.ts + 1) ∨
      (armed r = true ∧ r.presc.toNat + 1 ≠ c.ticksPerUs ∧ nextPresc r = r.presc + 1 ∧
        nextTs r = r.ts) := by
  unfold nextPresc nextTs
  cases ha : armed r
  · exact .inl ⟨rfl, by simp, by simp⟩
  · by_cases hp : r.presc.toNat + 1 = c.ticksPerUs
    · exact .inr (.inl ⟨rfl, hp, by simp [prescLast, hp], by simp [prescLast, hp]⟩)
    · exact .inr (.inr ⟨rfl, hp, by simp [prescLast, hp], by simp [prescLast, hp]⟩)

/-- The drop count rises by one up to its maximum, and its Gray copy with it (R93). -/
theorem countDrop_spec {c : Params} (r : Regs c) :
    (countDrop r).drop.toNat = min (r.drop.toNat + 1) (2 ^ c.dropW - 1) ∧
      Changed r.dg (countDrop r).dg (bin2gray (countDrop r).drop) :=
  ⟨sat_toNat _ _, Crossing.write_changed _ _⟩

/-- A slot that has been written reads as what it holds; the free value stands only for the others. -/
theorem memRead_of_read {c : Params} {r : Regs c} {i : BitVec c.ptrW} {v : BitVec c.frameW}
    (h : Memory.read r.slots i.toNat = some v) : memRead r i = v := by
  simp [memRead, h]

/-! ### The deadband filter -/

/-- `accept` either passes and records the time, or rejects and changes nothing. -/
theorem accept_cases {c : Params} (b : Deadband c) (t : BitVec c.tsW) :
    (passAt c b.lastValid b.lastT t = true ∧ accept b t = (true, ⟨true, t⟩)) ∨
      (passAt c b.lastValid b.lastT t = false ∧ accept b t = (false, b)) := by
  unfold accept
  split <;> simp_all

/-! ### The ring -/

/-- `Push` either finds the ring full and writes nothing, or writes slot, cursor and Gray copy. -/
theorem push_cases {c : Params} (f : BitVec c.frameW) (r : Regs c) :
    (full r = true ∧ push f r = (false, r)) ∨
      (full r = false ∧ push f r = (true, { memWrite r r.wptr f with
        wptr := inc r.wptr, wg := r.wg.write (bin2gray (inc r.wptr)) })) := by
  unfold push
  split <;> simp_all

/-- `Pop` either finds the ring empty and writes nothing, or hands over `SLOT[RPTR]` and advances. -/
theorem pop_cases {c : Params} (r : Regs c) :
    (empty r = true ∧ pop r = (none, r)) ∨
      (empty r = false ∧ pop r = (some (memRead r r.rptr),
        { r with rptr := inc r.rptr, rg := r.rg.write (bin2gray (inc r.rptr)) })) := by
  unfold pop
  split <;> simp_all

/-- What `Pop` hands over is `OUT_FRAME` (R79). -/
theorem pop_fst {c : Params} (r : Regs c) : (pop r).1 = outFrame r := by
  rcases pop_cases r with ⟨h, e⟩ | ⟨h, e⟩ <;> simp [e, outFrame, outValid, h]

/-- `Push` changes only the slots, the write cursor and its crossing. -/
theorem push_frame {c : Params} (f : BitVec c.frameW) (r : Regs c) :
    (push f r).2 = { r with
      slots := (push f r).2.slots, wptr := (push f r).2.wptr, wg := (push f r).2.wg } := by
  rcases push_cases f r with ⟨_, e⟩ | ⟨_, e⟩ <;> simp [e, memWrite]

/-- `Pop` changes only the read cursor and its crossing. -/
theorem pop_frame {c : Params} (r : Regs c) :
    (pop r).2 = { r with rptr := (pop r).2.rptr, rg := (pop r).2.rg } := by
  rcases pop_cases r with ⟨_, e⟩ | ⟨_, e⟩ <;> simp [e]

/-! ### One operation -/

/-- An operation answers a next state exactly for an admissible build, and then the one it computes. -/
theorem operate_next {s t : State} {f : Drive → Regs s.cfg → Regs s.cfg} :
    operate s f = .next t ↔ s.cfg.valid = true ∧ t = s.after (f s.drive s.regs) := by
  unfold operate
  split <;> rename_i h
  · constructor
    · intro e; injection e with e; exact ⟨h, e.symm⟩
    · rintro ⟨-, e⟩; rw [e]
  · constructor
    · intro e; cases e
    · rintro ⟨hv, -⟩; exact absurd hv h

/-- Two register files that a step leaves from one state are equal when the states are. -/
theorem State.after_injective {s : State} {r r' : Regs s.cfg} (h : s.after r = s.after r') : r = r' := by
  unfold State.after at h
  injection h

end Sys2Proof.Machine
end

