-- ==== Sys2Proof/Laws/PerInstr.lean ====
section
/-! SUPPORT. The statements made once per operation: its select vector lies in its row of the opcode
table (R55 to R57). -/

/-- The select vector the encoder writes for `i` fits the mask and match of `i`'s row. -/
def Sys2Proof.Laws.TablePattern.Statement (i : Sys2Proof.Instr) : Prop :=
  i.row.fits (Sys2Proof.encode i) = true

namespace Sys2Proof.Laws.TablePattern

theorem capArm (e p f : Bool) : Statement (.capArm e p f) := by
  cases e <;> cases p <;> cases f <;> rfl
theorem capQuiet (p f : Bool) : Statement (.capQuiet p f) := by cases p <;> cases f <;> rfl
theorem capReject (f : Bool) : Statement (.capReject f) := by cases f <;> rfl
theorem capPush : Statement .capPush := rfl
theorem capDrop : Statement .capDrop := rfl
theorem drnEmpty (r : Bool) : Statement (.drnEmpty r) := by cases r <;> rfl
theorem drnHold : Statement .drnHold := rfl
theorem drnPop : Statement .drnPop := rfl
theorem reset : Statement .reset := rfl

end Sys2Proof.Laws.TablePattern
end

