-- ==== Sys2Proof/Laws/Step.lean ====
section
/-! SUPPORT. What one step can do: it performs one operation of an admissible build, or it is refused. -/

namespace Sys2Proof.Machine

/-- What an operation does to the registers. -/
def Instr.effect {c : Params} (i : Instr) (d : Drive) (r : Regs c) : Regs c :=
  match i with
  | .capArm _ _ _ => capArmRegs d r
  | .capQuiet _ _ => capQuietRegs d r
  | .capReject _ => capRejectRegs d r
  | .capPush => capPushRegs d r
  | .capDrop => capDropRegs d r
  | .drnEmpty _ => drnEmptyRegs d r
  | .drnHold => drnHoldRegs d r
  | .drnPop => drnPopRegs d r
  | .reset => resetRegs d r

/-- `exec` is `operate` with the operation's effect. -/
theorem exec_eq_operate (i : Instr) (s : State) : exec i s = operate s (Instr.effect i) := by
  cases i <;> rfl

/-- The select vector of a step always names an operation. -/
theorem decode_selectVec (s : State) : ∃ i, decode s.selectVec = .ok i := by
  unfold State.selectVec
  split
  · exact ⟨_, rfl⟩
  · exact ⟨_, rfl⟩
  · exact ⟨.reset, rfl⟩

/-- Everything a step that answers a next state can have done. -/
theorem step_next {s t : State} (h : step s = .next t) :
    s.cfg.valid = true ∧ (s.drive.rst = .released ∨ s.drive.rst = .both) ∧
      ∃ i, decode s.selectVec = .ok i ∧ t = s.after (Instr.effect i s.drive s.regs) := by
  obtain ⟨i, hi⟩ := decode_selectVec s
  unfold step at h
  rw [hi] at h
  cases hr : s.drive.rst <;> rw [hr] at h <;> simp only [exec_eq_operate, operate_next] at h
  · exact ⟨h.1, .inl rfl, i, hi, h.2⟩
  · exact ⟨h.1, .inr rfl, i, hi, h.2⟩
  · cases h
  · cases h

/-- The registers a step leaves, for a step given by `State.after`. -/
theorem step_after {s : State} {r' : Regs s.cfg} (h : step s = .next (s.after r')) :
    ∃ i, decode s.selectVec = .ok i ∧ r' = Instr.effect i s.drive s.regs := by
  obtain ⟨-, -, i, hi, e⟩ := step_next h
  exact ⟨i, hi, State.after_injective e⟩

/-- A run of no steps. -/
@[simp] theorem State.run_zero (s : State) : s.run 0 = .next s := rfl

/-- A run that answers a next state takes a first step that does. -/
theorem State.run_succ {s u : State} {n : Nat} (h : s.run (n + 1) = .next u) :
    ∃ t, step s = .next t ∧ t.run n = .next u := by
  unfold State.run at h
  cases hs : step s with
  | next t => rw [hs] at h; exact ⟨t, rfl, h⟩
  | fault f => cases f
  | refused e => rw [hs] at h; cases h

end Sys2Proof.Machine
end

