-- ==== Sys2Proof/Machine/Stimulus.lean ====
section
/-! DEFINITION. The spec's stimulus notation (30_encoding.md R60): commands, and the draws they stand
for. It is no part of the hardware; `EXPECT` and comments name no draw and have no command here. -/

namespace Sys2Proof.Machine

/-- One command line of a stimulus program (R60). `old` is the suffix `meta`. -/
inductive Command where
  /-- `RESET`: one reset step. -/
  | reset
  /-- `PINS data=… sig=…`: from now on every capture edge draws `P = {sig, data}`. -/
  | pins (data : DataByte) (sig : SignalBits)
  /-- `CAP <n>`: `n` consecutive capture steps. -/
  | cap (n : Nat) (old : Bool)
  /-- `DRN <n> ready=<0|1>`: `n` consecutive drain steps. -/
  | drn (n : Nat) (ready old : Bool)
  /-- `WAIT_US <m>`: `CAP <m * TICKS_PER_US>`. -/
  | waitUs (m : Nat)
deriving DecidableEq, Repr

/-- The draws of a list of commands. `base` holds the pins in force and whatever the notation leaves
open (the sampling registers after a reset). -/
def expand (c : Params) (base : Drive) : List Command → List Drive
  | [] => []
  | .reset :: rest => { base with rst := .both } :: expand c base rest
  | .pins data sig :: rest => expand c { base with pinData := data, pinSig := sig } rest
  | .cap n old :: rest =>
    List.replicate n { base with rst := .released, clock := .capture, rgOld := old } ++
      expand c base rest
  | .drn n ready old :: rest =>
    List.replicate n
        { base with rst := .released, clock := .drain, outReady := ready, wgOld := old, dgOld := old } ++
      expand c base rest
  | .waitUs m :: rest =>
    List.replicate (m * c.ticksPerUs)
        { base with rst := .released, clock := .capture, rgOld := false } ++
      expand c base rest

/-- A block of build `c` (the `CFG` line) with the draws of a program before it. -/
def State.underProgram (c : Params) (base : Drive) (commands : List Command) : State :=
  { State.resetOf c with stimulus := expand c base commands }

end Sys2Proof.Machine
end

