-- ==== Sys2Proof/Tests/Slice0.lean ====
section
/-! SUPPORT. Tests. Expected values are the spec's own (the table each test names is of
95_test_vectors.md, L1 or L2, unless a rule is named) or are worked out from the rule it names. The last
part shows, for every obligation with hypotheses, concrete states and operands that meet them. -/

open Sys2Proof Sys2Proof.Machine

namespace Sys2Proof.Tests

/-! ### WellFormed: each check refuses an ill-formed term (R6 to R10, R58, R107(a)) -/

theorem test_valid_cfgA : Config.cfgA.valid = true := by decide
theorem test_valid_cfgB : Config.cfgB.valid = true := by decide
theorem test_refuses_ring_6 : Params.ringOk { Config.cfgA with ringN := 6 } = false := by decide
theorem test_refuses_ring_1 : Params.ringOk { Config.cfgA with ringN := 1 } = false := by decide
theorem test_refuses_deadband_max :
    Params.deadbandOk { Config.cfgB with deadbandUs := 15 } = false := by decide
theorem test_admits_deadband_14 :
    Params.deadbandOk { Config.cfgB with deadbandUs := 14 } = true := by decide
theorem test_refuses_tsW_0 : Params.tsWOk { Config.cfgA with tsW := 0 } = false := by decide
theorem test_refuses_tsW_65 : Params.tsWOk { Config.cfgA with tsW := 65 } = false := by decide
theorem test_refuses_ticks_0 : Params.ticksOk { Config.cfgA with ticksPerUs := 0 } = false := by decide
theorem test_refuses_dropW_0 : Params.dropWOk { Config.cfgA with dropW := 0 } = false := by decide
theorem test_refuses_dropW_65 : Params.dropWOk { Config.cfgA with dropW := 65 } = false := by decide
theorem test_refuses_unarmed_edge : Instr.wf (.capArm true false false) = false := by decide

/-! ### Decode: a select vector of every constructor, written out from its pattern (R55 to R57) -/

theorem test_decode_capArm : decode (.csel 0b0010#4) = .ok (.capArm false true false) := rfl
theorem test_decode_capQuiet : decode (.csel 0b1011#4) = .ok (.capQuiet true true) := rfl
theorem test_decode_capReject : decode (.csel 0b1101#4) = .ok (.capReject true) := rfl
theorem test_decode_capPush : decode (.csel 0b1110#4) = .ok .capPush := rfl
theorem test_decode_capDrop : decode (.csel 0b1111#4) = .ok .capDrop := rfl
theorem test_decode_drnEmpty : decode (.dsel 0b01#2) = .ok (.drnEmpty true) := rfl
theorem test_decode_drnHold : decode (.dsel 0b10#2) = .ok .drnHold := rfl
theorem test_decode_drnPop : decode (.dsel 0b11#2) = .ok .drnPop := rfl
theorem test_decode_reset : decode (.rstsel 0b1#1) = .ok .reset := rfl
theorem test_decode_rst_low : decode (.rstsel 0b0#1) = .error .resetReleased := rfl
theorem test_decode_unarmed_edge : decode (.csel 0b0111#4) = .ok (.capArm true true true) := rfl

/-- Table words padded to a byte, read in the narrowest format that has them (log entry 8). -/
theorem test_table_words :
    decodeTableWord 8 1 = some .reset ∧ decodeTableWord 8 0 = some (.drnEmpty false) ∧
      decodeTableWord 8 2 = some .drnHold ∧ decodeTableWord 8 3 = some .drnPop ∧
      decodeTableWord 8 8 = some (.capQuiet false false) ∧
      decodeTableWord 8 12 = some (.capReject false) ∧
      decodeTableWord 8 14 = some .capPush ∧ decodeTableWord 8 15 = some .capDrop ∧
      decodeTableWord 4 0 = some (.capArm false false false) ∧ decodeTableWord 8 16 = none :=
  ⟨rfl, rfl, rfl, rfl, rfl, rfl, rfl, rfl, rfl, rfl⟩

/-! ### Gray code, frames, records, deadband (L2.1 to L2.3) -/

theorem test_bin2gray_3 :
    (List.range 8).map (fun n => (bin2gray (BitVec.ofNat 3 n)).toNat) =
      [0b000, 0b001, 0b011, 0b010, 0b110, 0b111, 0b101, 0b100] := by decide
theorem test_gray2bin_3 :
    (List.range 8).map (fun n => (gray2bin (BitVec.ofNat 3 n)).toNat) =
      [0, 1, 3, 2, 7, 6, 4, 5] := by decide
theorem test_inc_wraps : inc 3#2 = 0#2 := by decide

theorem test_encode_frame : encodeFrame 123456#32 0x10A0F#17 = 0x3C4810A0F#49 := by decide
theorem test_encode_frame_full : encodeFrame 15#4 0x1FFFF#17 = 0x1FFFFF#21 := by decide
theorem test_frame_fields :
    frameTimestamp (tsW := 32) 0x3C4810A0F#49 = 123456#32 ∧
      frameSignal (tsW := 32) 0x3C4810A0F#49 = 0x10A#9 ∧
      frameData (tsW := 32) 0x3C4810A0F#49 = 0x0F#8 := by decide
/-- `0x001A5` is data `0xA5` with the strobe line high (R50, R61). -/
theorem test_lines :
    statusLevel 0x001A5#17 .strobe = true ∧ statusLevel 0x001A5#17 .ack = false ∧
      statusLevel 0x1000F#17 .error = true ∧ dataLevel 0x001A5#17 0 = true ∧
      dataLevel 0x001A5#17 1 = false := by decide
/-- L2.1: `0,0f,0,0,0,0,0,0,0,0,1`. -/
theorem test_record_zero :
    record (tsW := 32) 0x1000F#49 =
      ['0', ',', '0', 'f', ',', '0', ',', '0', ',', '0', ',', '0', ',', '0', ',', '0', ',', '0', ',',
        '0', ',', '1'] := by decide
/-- L2.1: `10,5a,1,1,0,0,0,0,0,0,0`. -/
theorem test_record_ten :
    record (tsW := 32) 0x14035A#49 =
      ['1', '0', ',', '5', 'a', ',', '1', ',', '1', ',', '0', ',', '0', ',', '0', ',', '0', ',', '0',
        ',', '0', ',', '0'] := by decide

/-- L2.2: the edge sequence 0, 2, 3, 4 under a deadband of 3. -/
theorem test_accept_all :
    acceptAll (c := Config.cfgA) ⟨false, 0⟩ [0, 2, 3, 4] = [true, false, false, true] := by decide
/-- L2.2: one wrap tolerated, `delta = D` rejected, aliasing beyond a wrap. -/
theorem test_pass_wrap :
    passAt Config.cfgB true 14#4 2#4 = true ∧ passAt Config.cfgB true 14#4 1#4 = false ∧
      passAt Config.cfgB true 7#4 8#4 = false := by decide

/-! ### The operations (L2.3 to L2.6), each one step on `CFG_A` -/

/-- A capture edge with the given pins. -/
def capEdge (data : DataByte) (sig : SignalBits) : Drive :=
  { lowDrive .released .capture false with pinData := data, pinSig := sig }
/-- A drain edge with the given `OUT_READY` and synchronizer draws. -/
def drnEdge (ready old : Bool) : Drive :=
  { lowDrive .released .drain ready with wgOld := old, dgOld := old }
/-- A reset that draws three different values of the sampling registers. -/
def rstEdge : Drive :=
  { lowDrive .both .capture false with resetS1 := 1, resetS2 := 2, resetPrev := 3 }

/-- A crossing that has settled at the Gray code `g`. -/
def settled {w : Nat} (g : BitVec w) : Crossing w :=
  { src := g, prev := g, chg := false, s1 := g, s2 := g }

/-- A block right after reset. -/
def r0 : Regs Config.cfgA := Regs.resetWith Config.cfgA 0 0 0 []
/-- Armed, with a change of the lines to `0x001A5` to detect; nothing accepted yet. -/
def rFirst : Regs Config.cfgA := { r0 with armCnt := 3, inS1 := 0x1A5, inS2 := 0x1A5 }
/-- One frame held and shown, another edge to detect at time 10. -/
def rHeld : Regs Config.cfgA :=
  { rFirst with
    lastValid := true, ts := 10, wptr := 1, wg := settled 0b01, slots := [(0, 0x1A5)] }
/-- The ring full with three frames, two of them shown. -/
def rFull : Regs Config.cfgA :=
  { rHeld with
    wptr := 3, wg := { src := 0b10, prev := 0b11, chg := true, s1 := 0b11, s2 := 0b11 }
    slots := [(0, 0x1), (1, 0x80002), (2, 0x100003)] }
/-- A state of `CFG_A` with the given draws to come. -/
def at_ (r : Regs Config.cfgA) (ds : List Drive) : State := ⟨Config.cfgA, r, ds, 0⟩

theorem test_arm_counts :
    (capArmRegs (capEdge 0xA5 1) r0).armCnt = 1 ∧ (capArmRegs (capEdge 0xA5 1) r0).ts.toNat = 0 ∧
      (capArmRegs (capEdge 0xA5 1) r0).inS1 = 0x1A5 := by decide
theorem test_arm_ends :
    (capArmRegs (capEdge 0 0) { r0 with armCnt := 2 }).armCnt = 3 ∧
      (capArmRegs (capEdge 0 0) { r0 with armCnt := 2 }).ts.toNat = 0 := by decide
theorem test_quiet_counts_time :
    (capQuietRegs (capEdge 0 0) { r0 with armCnt := 3, ts := 4 }).ts.toNat = 5 := by decide
theorem test_quiet_wraps_time :
    (capQuietRegs (c := Config.cfgB) (capEdge 0 0)
      { Regs.resetWith Config.cfgB 0 0 0 [] with armCnt := 3, ts := 15 }).ts.toNat = 0 := by decide
theorem test_reject_keeps_window :
    (capRejectRegs (capEdge 0 0) { rHeld with ts := 2 }).lastT.toNat = 0 ∧
      (capRejectRegs (capEdge 0 0) { rHeld with ts := 2 }).ts.toNat = 3 := by decide
theorem test_reject_while_full :
    csel { rFull with ts := 2 } = 0b1101#4 ∧
      (capRejectRegs (capEdge 0 0) { rFull with ts := 2 }).drop.toNat = 0 := by decide
theorem test_push_first :
    csel rFirst = 0b1110#4 ∧
      (Memory.read (capPushRegs (capEdge 0 0) rFirst).slots 0).map BitVec.toNat = some 0x1A5 ∧
      (capPushRegs (capEdge 0 0) rFirst).wptr.toNat = 1 ∧
      (capPushRegs (capEdge 0 0) rFirst).wg.src.toNat = 0b01 ∧
      (capPushRegs (capEdge 0 0) rFirst).lastValid = true ∧
      (capPushRegs (capEdge 0 0) rFirst).ts.toNat = 1 := by decide
/-- L2.4: the pointer wraps, with `r_c = 3`. -/
def rWrap : Regs Config.cfgA :=
  { rFull with rptr := 3, rg := settled 0b10, ts := 20, inS2 := 0x00006, wg := settled 0b10 }
theorem test_push_wraps :
    csel rWrap = 0b1110#4 ∧
      (Memory.read (capPushRegs (capEdge 0 0) rWrap).slots 3).map BitVec.toNat = some 0x280006 ∧
      (capPushRegs (capEdge 0 0) rWrap).wptr.toNat = 0 ∧
      (capPushRegs (capEdge 0 0) rWrap).wg.src.toNat = 0b00 := by decide
theorem test_drop_counts :
    csel rFull = 0b1111#4 ∧ (capDropRegs (capEdge 0 0) rFull).drop.toNat = 1 ∧
      (capDropRegs (capEdge 0 0) rFull).dg.src.toNat = 0b01 ∧
      (capDropRegs (capEdge 0 0) rFull).lastT.toNat = 10 ∧
      (capDropRegs (capEdge 0 0) rFull).slots = rFull.slots := by decide
theorem test_drop_saturates :
    (capDropRegs (c := Config.cfgB) (capEdge 0 0)
        { Regs.resetWith Config.cfgB 0 0 0 [] with drop := 3, dg := settled 0b10 }).drop.toNat = 3 ∧
      (capDropRegs (c := Config.cfgB) (capEdge 0 0)
        { Regs.resetWith Config.cfgB 0 0 0 [] with drop := 3, dg := settled 0b10 }).dg.src.toNat =
          0b10 := by decide
theorem test_empty_keeps_cursor :
    dsel r0 true = 0b01#2 ∧ (drnEmptyRegs (drnEdge true false) r0).rptr.toNat = 0 ∧
      outFrame r0 = none := by decide
/-- L2.3: a push seen through the default draw and through a `meta` draw. -/
theorem test_empty_samples :
    (drnEmptyRegs (drnEdge false false) (capPushRegs (capEdge 0 0) rFirst)).wg.s1.toNat = 0b01 ∧
      (drnEmptyRegs (drnEdge false true) (capPushRegs (capEdge 0 0) rFirst)).wg.s1.toNat = 0b00 ∧
      (drnEmptyRegs (drnEdge false true) (capPushRegs (capEdge 0 0) rFirst)).wg.chg = false := by
  decide
theorem test_hold_keeps_frame :
    dsel rHeld false = 0b10#2 ∧ (outFrame rHeld).map BitVec.toNat = some 0x1A5 ∧
      (outFrame (drnHoldRegs (drnEdge false false) rHeld)).map BitVec.toNat = some 0x1A5 := by decide
theorem test_hold_sees_drops :
    (outDropped (drnHoldRegs (drnEdge false false)
      { rHeld with
        drop := 2, dg := { src := 0b11, prev := 0, chg := false, s1 := 0b11, s2 := 0b01 } })).toNat =
      2 := by decide
theorem test_pop_takes_oldest :
    dsel rFull true = 0b11#2 ∧ (pop rFull).1.map BitVec.toNat = some 0x1 ∧
      (drnPopRegs (drnEdge true false) rFull).rptr.toNat = 1 ∧
      (drnPopRegs (drnEdge true false) rFull).rg.src.toNat = 0b01 := by decide
theorem test_pop_wraps :
    (drnPopRegs (drnEdge true false)
        { r0 with rptr := 3, rg := settled 0b10, slots := [(3, 7)] }).rptr.toNat = 0 ∧
      (drnPopRegs (drnEdge true false)
        { r0 with rptr := 3, rg := settled 0b10, slots := [(3, 7)] }).rg.src.toNat = 0b00 := by decide
theorem test_reset_draws :
    (resetRegs rstEdge rFull).inS1 = 1 ∧ (resetRegs rstEdge rFull).inS2 = 2 ∧
      (resetRegs rstEdge rFull).inPrev = 3 ∧ (resetRegs rstEdge rFull).wptr.toNat = 0 ∧
      (resetRegs rstEdge rFull).slots = rFull.slots := by decide
theorem test_reset_status :
    csel (resetRegs rstEdge rFull) = 0b0010#4 ∧ outValid (resetRegs rstEdge rFull) = false := by decide

/-- L2.4: the prescaler at 3 capture edges per microsecond. -/
theorem test_prescaler :
    (capQuietRegs (c := { Config.cfgA with ticksPerUs := 3 }) (capEdge 0 0)
      { Regs.resetWith { Config.cfgA with ticksPerUs := 3 } 0 0 0 [] with
        armCnt := 3, presc := 2 }).ts.toNat = 1 := by decide

/-! ### The step and the stimulus notation -/

theorem test_step_push : step (at_ rFirst [capEdge 0 0]) = exec .capPush (at_ rFirst [capEdge 0 0]) := rfl
theorem test_step_partial_reset :
    step (at_ rFirst [lowDrive .drainOnly .capture false]) = .refused .partialReset := rfl
theorem test_fetch_drop :
    step (State.reset.withFetchWord 4 15) = exec .capDrop (State.reset.withFetchWord 4 15) := rfl
/-- R60: `WAIT_US <m>` is `CAP <m * TICKS_PER_US>`. -/
theorem test_wait_us :
    expand { Config.cfgA with ticksPerUs := 3 } (capEdge 0 0) [.waitUs 2] =
      List.replicate 6 (capEdge 0 0) := by decide

/-! ### Witnesses: every obligation's hypotheses are met, clause by clause -/

theorem witness_SelectDecodesAreTotal :
    decode (.csel 0b0111#4) = .ok (.capArm true true true) ∧ (0b0111#4).getLsbD 3 = false :=
  ⟨rfl, rfl⟩
theorem witness_DecodeAndEncodeAgree : decode (.dsel 0b10#2) = .ok .drnHold := rfl
theorem witness_StepRunsTheDecodedOperation :
    (decode (at_ rFirst [capEdge 0 0]).selectVec = .ok .capPush ∧
      (at_ rFirst [capEdge 0 0]).drive.rst = .released) ∧
    (decode (at_ rFirst [rstEdge]).selectVec = .ok .reset ∧
      (at_ rFirst [rstEdge]).drive.rst = .both) := ⟨⟨rfl, rfl⟩, rfl, rfl⟩
theorem witness_EdgeSelectsByStatusSignals_capture :
    (capEdge 0 0).rst = .released ∧ (capEdge 0 0).clock = .capture ∧ armed r0 = false ∧
      (armed { rFirst with inS2 := 0 } = true ∧ edge { rFirst with inS2 := 0 } = false) ∧
      (armed { rHeld with ts := 3 } = true ∧ edge { rHeld with ts := 3 } = true ∧
        pass { rHeld with ts := 3 } = false) ∧
      (armed rHeld = true ∧ edge rHeld = true ∧ pass rHeld = true ∧ full rHeld = false) ∧
      (armed rFull = true ∧ edge rFull = true ∧ pass rFull = true ∧ full rFull = true) := by decide
theorem witness_EdgeSelectsByStatusSignals_drain :
    (drnEdge true false).rst = .released ∧ (drnEdge true false).clock = .drain ∧
      outValid r0 = false ∧ outValid rHeld = true ∧ (drnEdge false false).outReady = false ∧
      (drnEdge true false).outReady = true := by decide
theorem witness_ResetOverridesSelection : (at_ rFull [rstEdge]).drive.rst = .both := rfl
theorem witness_EveryStepCompletes :
    (at_ rFull [capEdge 0 0]).cfg.valid = true ∧ (at_ rFull [capEdge 0 0]).drive.rst = .released ∧
      (at_ rFull [rstEdge]).drive.rst = .both := by decide
/-- A block whose ring has six slots: no build of the spec (R107(a)). -/
def sixSlots : State := State.resetOf { Config.cfgA with ringN := 6 }
theorem witness_RefusalsAreTheSpecs :
    sixSlots.cfg.valid = false ∧
      (at_ rFull [lowDrive .captureOnly .drain false]).drive.rst = .captureOnly ∧
      (at_ rFull [lowDrive .drainOnly .drain false]).drive.rst = .drainOnly := by decide
theorem witness_BuildNeverChanges : ∃ t, step (at_ rFull [capEdge 0 0]) = .next t := ⟨_, rfl⟩
theorem witness_WithFetchWordSelectsTheOperation :
    State.reset.cfg.valid = true ∧ decodeTableWord 8 14 = some .capPush ∧
      Instr.wf .capPush = true := by decide
theorem witness_GrayCodeConverts : 0 < 2 ∧ 0 + 1 < 2 := by decide
theorem witness_GrayStepsAreOneBit_codes : 0 < 1 ∧ (2#2).toNat < 2 ^ 2 - 1 := by decide
theorem witness_GrayStepsAreOneBit_step :
    GrayCopies rFirst ∧ (at_ rFirst [capEdge 0 0]).drive.rst = .released ∧
      step (at_ rFirst [capEdge 0 0]) =
        .next ((at_ rFirst [capEdge 0 0]).after (capPushRegs (capEdge 0 0) rFirst)) :=
  ⟨by decide, rfl, rfl⟩
theorem witness_OneRecordPerPoppedFrame :
    (at_ rHeld [drnEdge true false]).selectVec = .dsel 0b11#2 ∧
      (at_ rHeld [drnEdge false false]).selectVec ≠ .dsel 0b11#2 := by decide
theorem witness_SecondEdgeInWindowIsRejected :
    accept (c := Config.cfgA) ⟨false, 0⟩ 0 = (true, ⟨true, 0⟩) ∧
      (0 : BitVec Config.cfgA.tsW).toNat ≤ (3 : BitVec Config.cfgA.tsW).toNat ∧
      (3 : BitVec Config.cfgA.tsW).toNat - (0 : BitVec Config.cfgA.tsW).toNat ≤
        Config.cfgA.deadbandUs := by decide
/-- Times 4, 7 and 8 after an acceptance at time 0, on `CFG_B`. -/
def laterTimes : List (BitVec Config.cfgB.tsW) := [4#4, 7#4, 8#4]
theorem witness_AcceptedTimesAreSpacedOut :
    laterTimes.Pairwise (fun x y => x.toNat ≤ y.toNat) ∧
      ∀ t ∈ laterTimes, (Deadband.mk (c := Config.cfgB) true 0#4).lastT.toNat ≤ t.toNat :=
  ⟨by decide, by decide⟩
theorem witness_FirstEdgeIsPushed :
    (at_ rFirst [capEdge 0 0]).Inv ∧ rFirst.lastValid = false ∧
      (at_ rFirst [capEdge 0 0]).drive.rst = .released ∧
      (at_ rFirst [capEdge 0 0]).drive.clock = .capture ∧ armed rFirst = true ∧
      rFirst.inS2 ≠ rFirst.inPrev := by decide

theorem witness_CaptureWithoutAcceptance :
    (at_ r0 [capEdge 0 0]).cfg.valid = true ∧
      ∀ i ∈ [Instr.capArm false true false, .capQuiet true true, .capReject true],
        (∃ e p f, i = .capArm e p f) ∨ (∃ p f, i = .capQuiet p f) ∨ ∃ f, i = .capReject f := by
  refine ⟨by decide, ?_⟩
  simp
theorem witness_CapPushEnqueues :
    (at_ rFirst [capEdge 0 0]).cfg.valid = true ∧ full rFirst = false ∧ full rFull = true ∧
      full rWrap = false := by decide
theorem witness_CapDropCounts : (at_ rFull [capEdge 0 0]).cfg.valid = true := by decide
theorem witness_DrainWithoutPop :
    (at_ rHeld [drnEdge false true]).cfg.valid = true ∧
      ∀ i ∈ [Instr.drnEmpty true, .drnHold], (∃ r, i = .drnEmpty r) ∨ i = .drnHold := by
  refine ⟨by decide, ?_⟩
  simp
theorem witness_DrnPopDequeues :
    (at_ rHeld [drnEdge true false]).cfg.valid = true ∧ empty rHeld = false ∧ empty r0 = true := by
  decide
theorem witness_ResetWritesEveryRegister : (at_ rFull [rstEdge]).cfg.valid = true := by decide
theorem witness_StatusAfterReset :
    (at_ rFull [rstEdge]).cfg.valid = true ∧
      exec .reset (at_ rFull [rstEdge]) =
        .next ((at_ rFull [rstEdge]).after (resetRegs rstEdge rFull)) := ⟨by decide, rfl⟩
theorem witness_RepeatedResetOnlyRedraws :
    ∃ r' r'', exec .reset (at_ rFull [rstEdge, rstEdge]) =
        .next ((at_ rFull [rstEdge, rstEdge]).after r') ∧
      exec .reset ((at_ rFull [rstEdge, rstEdge]).after r') =
        .next (((at_ rFull [rstEdge, rstEdge]).after r').after r'') :=
  ⟨resetRegs rstEdge rFull, resetRegs rstEdge (resetRegs rstEdge rFull), rfl, rfl⟩

/-- A capture step that pushes, from a state with the invariant. -/
theorem witness_push_step :
    (at_ rFirst [capEdge 0 0]).Inv ∧ (at_ rFirst [capEdge 0 0]).drive.rst = .released ∧
      (at_ rFirst [capEdge 0 0]).drive.clock = .capture ∧ edge rFirst = true ∧
      pass rFirst = true ∧
      step (at_ rFirst [capEdge 0 0]) =
        .next ((at_ rFirst [capEdge 0 0]).after (capPushRegs (capEdge 0 0) rFirst)) :=
  ⟨by decide, rfl, rfl, by decide, by decide, rfl⟩
/-- A drain step that pops, from a state with the invariant. -/
theorem witness_pop_step :
    (at_ rHeld [drnEdge true false]).Inv ∧ (at_ rHeld [drnEdge true false]).drive.rst = .released ∧
      (at_ rHeld [drnEdge true false]).drive.clock = .drain ∧
      step (at_ rHeld [drnEdge true false]) =
        .next ((at_ rHeld [drnEdge true false]).after (drnPopRegs (drnEdge true false) rHeld)) :=
  ⟨by decide, rfl, rfl, rfl⟩
/-- A reset step, from a state with the invariant and a full ring. -/
theorem witness_reset_step :
    (at_ rFull [rstEdge]).Inv ∧ (at_ rFull [rstEdge]).drive.rst = .both ∧
      step (at_ rFull [rstEdge]) =
        .next ((at_ rFull [rstEdge]).after (resetRegs rstEdge rFull)) := ⟨by decide, rfl, rfl⟩

theorem witness_EveryEdgeDoesItsCommonPart :
    ((at_ rFirst [capEdge 0 0]).drive.clock = .capture ∧
      ∃ r', step (at_ rFirst [capEdge 0 0]) = .next ((at_ rFirst [capEdge 0 0]).after r')) ∧
    ((at_ rHeld [drnEdge true true]).drive.clock = .drain ∧
      ∃ r', step (at_ rHeld [drnEdge true true]) = .next ((at_ rHeld [drnEdge true true]).after r')) :=
  ⟨⟨rfl, _, witness_push_step.2.2.2.2.2⟩, rfl, drnPopRegs (drnEdge true true) rHeld, rfl⟩
theorem witness_GraySourcesTrackTheirChanges :
    (∃ r', (at_ rFirst [capEdge 0 0]).drive.clock = .capture ∧
      step (at_ rFirst [capEdge 0 0]) = .next ((at_ rFirst [capEdge 0 0]).after r')) ∧
    ∃ r', (at_ rHeld [drnEdge true false]).drive.clock = .drain ∧
      step (at_ rHeld [drnEdge true false]) = .next ((at_ rHeld [drnEdge true false]).after r') :=
  ⟨⟨_, rfl, witness_push_step.2.2.2.2.2⟩, _, rfl, witness_pop_step.2.2.2⟩
theorem witness_DeadbandUpdatesOnAcceptance :
    (edge rFirst = true ∧ pass rFirst = true) ∧ ¬(edge r0 = true ∧ pass r0 = true) ∧
      step (at_ r0 [capEdge 0 0]) =
        .next ((at_ r0 [capEdge 0 0]).after (capArmRegs (capEdge 0 0) r0)) :=
  ⟨by decide, by decide, rfl⟩

/-- `rHeld` with another drain domain: the same to the capture domain. -/
def rHeldOther : Regs Config.cfgA := { rHeld with rptr := 1, wg := { rHeld.wg with s1 := 0, s2 := 0 } }
theorem witness_CaptureDomainIsIsolated :
    SameCaptureDomain rHeld rHeldOther ∧ rHeldOther.rg = rHeld.rg ∧
      step ⟨Config.cfgA, rHeld, [capEdge 0 0], 0⟩ =
        .next ⟨Config.cfgA, capPushRegs (capEdge 0 0) rHeld, [], 0 + 1⟩ ∧
      step ⟨Config.cfgA, rHeldOther, [capEdge 0 0], 0⟩ =
        .next ⟨Config.cfgA, capPushRegs (capEdge 0 0) rHeldOther, [], 0 + 1⟩ :=
  ⟨by decide, rfl, rfl, rfl⟩
/-- `rHeld` with another capture domain: the same to the drain domain. -/
def rHeldLater : Regs Config.cfgA := { rHeld with inS2 := 7, ts := 99, lastT := 50, drop := 3 }
theorem witness_DrainDomainIsIsolated :
    (rHeldLater.rptr = rHeld.rptr ∧ rHeldLater.rg.src = rHeld.rg.src ∧ rHeldLater.wg = rHeld.wg ∧
      rHeldLater.dg = rHeld.dg) ∧ memRead rHeldLater rHeld.rptr = memRead rHeld rHeld.rptr ∧
      step ⟨Config.cfgA, rHeld, [drnEdge true false], 0⟩ =
        .next ⟨Config.cfgA, drnPopRegs (drnEdge true false) rHeld, [], 0 + 1⟩ ∧
      step ⟨Config.cfgA, rHeldLater, [drnEdge true false], 0⟩ =
        .next ⟨Config.cfgA, drnPopRegs (drnEdge true false) rHeldLater, [], 0 + 1⟩ :=
  ⟨⟨rfl, rfl, rfl, rfl⟩, rfl, rfl, rfl⟩
theorem witness_StoppedClockKeepsItsDomain :
    (∃ r' k, (at_ rHeld [drnEdge true false, drnEdge true false]).run 2 =
        .next ⟨Config.cfgA, r', [], k⟩ ∧
      ∀ i ∈ (at_ rHeld [drnEdge true false, drnEdge true false]).operations 2, i.isDrain = true) ∧
    ∃ r' k, (at_ rFirst [capEdge 1 0, capEdge 2 0]).run 2 = .next ⟨Config.cfgA, r', [], k⟩ ∧
      ∀ i ∈ (at_ rFirst [capEdge 1 0, capEdge 2 0]).operations 2, i.isCapture = true :=
  ⟨⟨_, _, rfl, by decide⟩, _, _, rfl, by decide⟩

theorem witness_ResetEstablishesInvariant :
    (at_ (resetRegs rstEdge rFull) []).cfg.valid = true ∧ (at_ (resetRegs rstEdge rFull) []).JustReset :=
  ⟨by decide, 1, 2, 3, rFull.slots, by decide, by decide, rfl⟩
theorem witness_StepKeepsInvariant :
    (at_ rFull [rstEdge]).Inv ∧ (∃ t, step (at_ rFull [rstEdge]) = .next t) ∧
      (at_ rFirst [capEdge 0 0]).Inv ∧ (∃ t, step (at_ rFirst [capEdge 0 0]) = .next t) ∧
      (at_ rHeld [drnEdge true false]).Inv ∧ ∃ t, step (at_ rHeld [drnEdge true false]) = .next t :=
  ⟨witness_reset_step.1, ⟨_, rfl⟩, witness_push_step.1, ⟨_, rfl⟩, witness_pop_step.1, _, rfl⟩
theorem witness_StepKeepsGrayCopies :
    GrayCopies rFull ∧ ∃ t, step (at_ rFull [capEdge 0 0]) = .next t := ⟨by decide, _, rfl⟩
theorem witness_StepKeepsSlotArrayCanonical :
    Memory.wf rHeld.slots = true ∧ (rHeld.slots.all fun e => decide (e.1 < Config.cfgA.ringN)) = true ∧
      ∃ t, step (at_ rHeld [capEdge 0 0]) = .next t := ⟨by decide, by decide, _, rfl⟩
/-- Reset, then three arming steps, one quiet step and two drain steps, in a mixed order. -/
def sMixed : State :=
  at_ r0 [capEdge 1 0, drnEdge true false, capEdge 1 0, capEdge 1 0, drnEdge false true, capEdge 1 0]
theorem witness_run_from_reset :
    sMixed.cfg.valid = true ∧ sMixed.JustReset ∧ (∃ t, sMixed.run 6 = .next t) ∧
      Instr.reset ∉ sMixed.operations 6 ∧ (sMixed.operations 6).countP Instr.isCapture = 4 :=
  ⟨by decide, ⟨0, 0, 0, [], rfl, rfl, rfl⟩, ⟨_, rfl⟩, by decide, by decide⟩
theorem witness_ReachablePointerChain :
    sMixed.cfg.valid = true ∧ sMixed.JustReset ∧ ∃ t, sMixed.run 6 = .next t :=
  ⟨witness_run_from_reset.1, witness_run_from_reset.2.1, witness_run_from_reset.2.2.1⟩
theorem witness_TimestampCountsArmedEdges :
    sMixed.JustReset ∧ (∃ t, sMixed.run 4 = .next t) ∧ Instr.reset ∉ sMixed.operations 4 ∧
      (sMixed.operations 4).countP Instr.isCapture = 3 ∧ (sMixed.operations 0).countP Instr.isCapture = 0 :=
  ⟨witness_run_from_reset.2.1, ⟨_, rfl⟩, by decide, by decide, by decide⟩
/-- A block right after reset that arms, pushes the frame of one line change and pops it. -/
def sPushPop : State :=
  at_ r0 [capEdge 0 0, capEdge 5 0, capEdge 5 0, capEdge 5 0, drnEdge true false, drnEdge true false,
    drnEdge true false]
theorem witness_PoppedFramesWerePushedSinceReset :
    sPushPop.cfg.valid = true ∧ sPushPop.JustReset ∧ (∃ t, sPushPop.run 7 = .next t) ∧
      Instr.reset ∉ sPushPop.operations 7 ∧ sPushPop.pushes 7 = [5] ∧ sPushPop.pops 7 = [5] :=
  ⟨by decide, ⟨0, 0, 0, [], rfl, rfl, rfl⟩, ⟨_, rfl⟩, by decide, by decide, by decide⟩
theorem witness_ViewsNeverMoveBackward :
    (at_ rFull [drnEdge true true]).Inv ∧ (at_ rFull [drnEdge true true]).drive.rst = .released ∧
      step (at_ rFull [drnEdge true true]) =
        .next ((at_ rFull [drnEdge true true]).after (drnPopRegs (drnEdge true true) rFull)) :=
  ⟨by decide, rfl, rfl⟩
theorem witness_RingIsAQueue :
    ((at_ rFull [rstEdge]).Inv ∧ (at_ rFull [rstEdge]).drive.rst = .both ∧
      step (at_ rFull [rstEdge]) = .next ((at_ rFull [rstEdge]).after (resetRegs rstEdge rFull))) ∧
    (at_ rHeld [drnEdge true false]).Inv ∧ (at_ rHeld [drnEdge true false]).drive.rst = .released ∧
      step (at_ rHeld [drnEdge true false]) =
        .next ((at_ rHeld [drnEdge true false]).after (drnPopRegs (drnEdge true false) rHeld)) :=
  ⟨witness_reset_step, witness_pop_step.1, rfl, rfl⟩
theorem witness_RunsAreFirstInFirstOut :
    (at_ rHeld [capEdge 0 0, drnEdge true false]).Inv ∧
      (∃ t, (at_ rHeld [capEdge 0 0, drnEdge true false]).run 2 = .next t) ∧
      (at_ rHeld [capEdge 0 0, drnEdge true false]).operations 2 = [.capPush, .drnPop] :=
  ⟨by decide, ⟨_, rfl⟩, by decide⟩
theorem witness_NoFalseOverwrite :
    (at_ rHeld [capEdge 0 0]).Inv ∧ full rHeld = false ∧ 0 < occupancy rHeld ∧
      step (at_ rHeld [capEdge 0 0]) =
        .next ((at_ rHeld [capEdge 0 0]).after (capPushRegs (capEdge 0 0) rHeld)) ∧
      (Memory.read (capPushRegs (capEdge 0 0) rHeld).slots 1).isSome = true ∧
      Memory.read rHeld.slots 1 = none := ⟨by decide, by decide, by decide, rfl, by decide, by decide⟩
theorem witness_FrameCountFollowsOperations :
    ((at_ rHeld [capEdge 0 0]).Inv ∧ decode (at_ rHeld [capEdge 0 0]).selectVec = .ok .capPush ∧
      ∃ r', step (at_ rHeld [capEdge 0 0]) = .next ((at_ rHeld [capEdge 0 0]).after r')) ∧
    ((at_ rHeld [drnEdge true false]).Inv ∧
      decode (at_ rHeld [drnEdge true false]).selectVec = .ok .drnPop ∧
      ∃ r', step (at_ rHeld [drnEdge true false]) =
        .next ((at_ rHeld [drnEdge true false]).after r')) ∧
    ((at_ rFull [rstEdge]).Inv ∧ decode (at_ rFull [rstEdge]).selectVec = .ok .reset ∧
      ∃ r', step (at_ rFull [rstEdge]) = .next ((at_ rFull [rstEdge]).after r')) ∧
    (at_ rFull [capEdge 0 0]).Inv ∧ decode (at_ rFull [capEdge 0 0]).selectVec = .ok .capDrop ∧
      ∃ r', step (at_ rFull [capEdge 0 0]) = .next ((at_ rFull [capEdge 0 0]).after r') :=
  ⟨⟨by decide, rfl, capPushRegs (capEdge 0 0) rHeld, rfl⟩,
    ⟨witness_pop_step.1, rfl, _, witness_pop_step.2.2.2⟩,
    ⟨witness_reset_step.1, rfl, _, witness_reset_step.2.2⟩,
    by decide, rfl, capDropRegs (capEdge 0 0) rFull, rfl⟩
theorem witness_FullAndValidAreConservative :
    (at_ rFull []).Inv ∧ inc rFull.wptr = rFull.rptr ∧ (at_ r0 []).Inv ∧ r0.rptr = r0.wptr :=
  ⟨by decide, by decide, by decide, rfl⟩
theorem witness_OutFrameIsHeld :
    (at_ rHeld [capEdge 0 0]).Inv ∧ (at_ rHeld [capEdge 0 0]).drive.rst = .released ∧
      (at_ rHeld [capEdge 0 0]).selectVec ≠ .dsel 0b11#2 ∧ outValid rHeld = true ∧
      (∃ r', step (at_ rHeld [capEdge 0 0]) = .next ((at_ rHeld [capEdge 0 0]).after r')) ∧
      outValid r0 = false :=
  ⟨by decide, rfl, by decide, by decide, ⟨capPushRegs (capEdge 0 0) rHeld, rfl⟩, by decide⟩
theorem witness_OverflowIsConserved :
    (at_ rFirst [capEdge 0 0]).Inv ∧ readView rFirst = rFirst.rptr ∧ occupancy rFirst = 0 ∧
      (∃ t, (at_ rFirst [capEdge 0 0]).run 1 = .next t) ∧
      (at_ rFirst [capEdge 0 0]).operations 1 = [.capPush] :=
  ⟨by decide, by decide, by decide, ⟨_, rfl⟩, by decide⟩
theorem witness_DropCountNeverDecreases :
    (at_ rFull [capEdge 0 0]).Inv ∧ (at_ rFull [capEdge 0 0]).drive.rst = .released ∧
      step (at_ rFull [capEdge 0 0]) =
        .next ((at_ rFull [capEdge 0 0]).after (capDropRegs (capEdge 0 0) rFull)) :=
  ⟨by decide, rfl, rfl⟩
theorem witness_PinsReachTheSnapshotInTwoSteps :
    (at_ r0 [capEdge 5 0, drnEdge true false, capEdge 6 0]).drive.rst = .released ∧
      (at_ r0 [capEdge 5 0, drnEdge true false, capEdge 6 0]).drive.clock = .capture ∧
      (∃ t, (at_ r0 [capEdge 5 0, drnEdge true false, capEdge 6 0]).run (2 + 1) = .next t) ∧
      Instr.reset ∉ (at_ r0 [capEdge 5 0, drnEdge true false, capEdge 6 0]).operations (2 + 1) ∧
      ((at_ r0 [capEdge 5 0, drnEdge true false, capEdge 6 0]).operations (2 + 1)).countP
        Instr.isCapture = 2 := ⟨rfl, rfl, ⟨_, rfl⟩, by decide, by decide⟩
theorem witness_PinsReachTheSnapshotInTwoSteps_armed :
    armed { r0 with armCnt := 3 } = true ∧
      ((at_ { r0 with armCnt := 3 } [capEdge 5 0, capEdge 6 0]).operations 2).countP
        Instr.isCapture = 2 := by decide
theorem witness_SynchronizerSettles :
    (settled 0b01#2).chg = false ∧ rFull.wg.chg = true := by decide
theorem witness_ViewsBecomeExact :
    (at_ rFull [drnEdge false true, drnEdge false false, drnEdge false false]).Inv ∧
      (∃ t, (at_ rFull [drnEdge false true, drnEdge false false, drnEdge false false]).run 3 =
        .next t) ∧
      (at_ rFull [drnEdge false true, drnEdge false false, drnEdge false false]).operations 3 =
        [.drnHold, .drnHold, .drnHold] ∧
      (at_ rFull [capEdge 0 0, capEdge 0 0, capEdge 0 0]).Inv ∧
      (∃ t, (at_ rFull [capEdge 0 0, capEdge 0 0, capEdge 0 0]).run 3 = .next t) ∧
      ((at_ rFull [capEdge 0 0, capEdge 0 0, capEdge 0 0]).operations 3).countP Instr.isCapture = 3 ∧
      Instr.drnPop ∉ (at_ rFull [capEdge 0 0, capEdge 0 0, capEdge 0 0]).operations 3 :=
  ⟨by decide, ⟨_, rfl⟩, by decide, by decide, ⟨_, rfl⟩, by decide, by decide⟩
theorem witness_HeldFrameBecomesVisible :
    (at_ rHeld [drnEdge false false, drnEdge false false, drnEdge false false]).Inv ∧
      0 < occupancy rHeld ∧
      (∃ t, (at_ rHeld [drnEdge false false, drnEdge false false, drnEdge false false]).run 3 =
        .next t) ∧
      (at_ rHeld [drnEdge false false, drnEdge false false, drnEdge false false]).operations 3 =
        [.drnHold, .drnHold, .drnHold] := ⟨by decide, by decide, ⟨_, rfl⟩, by decide⟩

end Sys2Proof.Tests
end

section
/-! The build of a block is fixed (R12). -/

namespace Sys2Proof.Machine

/-- A step, `RESET` included, writes only the registers and the model's bookkeeping of the draws. -/
theorem step_cfg {s t : State} (h : step s = .next t) : t.cfg = s.cfg := by
  obtain ⟨-, -, i, -, ht⟩ := step_next h
  calc t.cfg = (s.after (Instr.effect i s.drive s.regs)).cfg := congrArg State.cfg ht
    _ = s.cfg := State.after_cfg _ _

/-- Settles O10: every step that completes leaves a `State.after`, which keeps the build. -/
theorem buildNeverChanges : Obligations.BuildNeverChanges := fun _ _ => step_cfg

end Sys2Proof.Machine
end

section
/-! Distances in ring order (R41): moving the point they are measured from, and one step forward. -/

namespace Sys2Proof.Machine

@[simp] theorem ahead_self {w : Nat} (b : BitVec w) : ahead b b = 0 := by simp [ahead]

/-- Distances from one point tell points apart. -/
theorem eq_of_ahead_eq {w : Nat} {b x y : BitVec w} (h : ahead b x = ahead b y) : x = y :=
  (BitVec.sub_left_inj b).mp (BitVec.eq_of_toNat_eq h)

/-- Measured from a point `b'` on the way from `b` to `x`, the distance to `x` is shorter by the way
from `b` to `b'`. -/
theorem ahead_rebase {w : Nat} {b b' x : BitVec w} (h : ahead b b' ≤ ahead b x) :
    ahead b' x = ahead b x - ahead b b' := by
  have hx : x - b' = (x - b) - (b' - b) := by simp
  unfold ahead at *
  rw [hx, BitVec.toNat_sub_of_le (BitVec.le_def.mpr h)]

/-- Points in order as measured from `b` are in order as measured from any point not after them. -/
theorem ahead_le_of_rebase {w : Nat} {b b' x y : BitVec w} (hb : ahead b b' ≤ ahead b x)
    (hxy : ahead b x ≤ ahead b y) : ahead b' x ≤ ahead b' y := by
  rw [ahead_rebase hb, ahead_rebase (hb.trans hxy)]
  omega

theorem ahead_inc_mod {w : Nat} (b x : BitVec w) :
    ahead b (inc x) = (ahead b x + 1) % 2 ^ w := by
  have hsub : inc x - b = inc (x - b) := BitVec.add_sub_comm
  unfold ahead
  rw [hsub, inc_toNat]

/-- One step forward is one further away while some point is further away. -/
theorem ahead_inc_of_lt {w : Nat} {b x y : BitVec w} (h : ahead b x < ahead b y) :
    ahead b (inc x) = ahead b x + 1 := by
  have hy : ahead b y < 2 ^ w := (y - b).isLt
  rw [ahead_inc_mod, Nat.mod_eq_of_lt (by omega)]

/-- One step forward is one further away, unless it comes round to the point measured from. -/
theorem ahead_inc_of_ne {w : Nat} {b x : BitVec w} (h : inc x ≠ b) :
    ahead b (inc x) = ahead b x + 1 := by
  have hlt : ahead b x < 2 ^ w := (x - b).isLt
  have hturn : ahead b x + 1 ≠ 2 ^ w := fun he =>
    h (eq_of_ahead_eq (b := b) (by rw [ahead_inc_mod, he, Nat.mod_self, ahead_self]))
  rw [ahead_inc_mod, Nat.mod_eq_of_lt (by omega)]

/-- The point `k` places forward is at distance `k`, below one full turn. -/
theorem ahead_add_ofNat {w k : Nat} (b : BitVec w) (h : k < 2 ^ w) :
    ahead b (b + BitVec.ofNat w k) = k := by
  simp [ahead, Nat.mod_eq_of_lt h]

end Sys2Proof.Machine
end

section
/-! The Gray code is inverted (R73), so a Gray copy read back is its counter. -/

namespace Sys2Proof.Machine

/-- The exclusive-or of `n` neighbouring Gray bits telescopes to two bits of the number. -/
theorem xorShifts_bin2gray_getLsbD {w : Nat} (b : BitVec w) (n i : Nat) :
    (xorShifts (bin2gray b) n).getLsbD i = (b.getLsbD i ^^ b.getLsbD (i + n)) := by
  induction n with
  | zero => simp [xorShifts]
  | succ n ih =>
    have hn : n + i = i + n := Nat.add_comm n i
    have hs : 1 + (i + n) = i + (n + 1) := by omega
    rw [xorShifts_succ_getLsbD, ih, bin2gray_getLsbD, hn, hs]
    simp

/-- `gray2bin` undoes `bin2gray` at every width (R73). -/
@[simp] theorem gray2bin_bin2gray {w : Nat} (b : BitVec w) : gray2bin (bin2gray b) = b := by
  refine BitVec.eq_of_getLsbD_eq fun i _ => ?_
  have htop : b.getLsbD (i + w) = false := BitVec.getLsbD_of_ge b _ (Nat.le_add_left w i)
  rw [gray2bin, xorShifts_bin2gray_getLsbD, htop, Bool.xor_false]

end Sys2Proof.Machine
end

section
/-! The order of a crossing's stages (R83) under its own writes and samples. -/

namespace Sys2Proof.Machine

/-- A crossing stays in order when its source moves to a value that is no closer. -/
theorem Crossing.inOrder_write {w : Nat} {x : Crossing w} {v : BitVec w} {dist : BitVec w → Nat}
    (h : x.inOrder dist) (hv : dist (gray2bin x.src) ≤ dist (gray2bin v)) :
    (x.write v).inOrder dist := by
  obtain ⟨h21, h1s, -⟩ := id h
  unfold Crossing.write
  split
  · exact h
  · exact ⟨h21, h1s.trans hv, fun _ => ⟨h1s, hv⟩⟩

@[simp] theorem Crossing.write_src {w : Nat} (x : Crossing w) (v : BitVec w) :
    (x.write v).src = v := (Crossing.write_changed x v).1

@[simp] theorem Crossing.write_s2 {w : Nat} (x : Crossing w) (v : BitVec w) :
    (x.write v).s2 = x.s2 := by
  obtain ⟨-, -, -, -, hs2⟩ := Crossing.write_changed x v
  exact hs2

/-- A crossing is in order after a reset, when all its registers are equal (R118). -/
theorem Crossing.inOrder_reset {w : Nat} (dist : BitVec w → Nat) :
    (Crossing.reset w).inOrder dist := ⟨le_rfl, le_rfl, fun hc => by cases hc⟩

/-- Whatever the draw, the first stage takes a value between its own and the source. -/
theorem Crossing.inOrder_sample_s1 {w : Nat} {x : Crossing w} {dist : BitVec w → Nat}
    (h : x.inOrder dist) (old : Bool) :
    dist (gray2bin x.s1) ≤ dist (gray2bin (x.sample old).s1) ∧
      dist (gray2bin (x.sample old).s1) ≤ dist (gray2bin x.src) := by
  obtain ⟨-, h1s, hchg⟩ := h
  rw [Crossing.sample_s1]
  split
  · rename_i hc
    exact hchg (Bool.and_eq_true_iff.mp hc).1
  · exact ⟨h1s, le_rfl⟩

/-- A receiving edge keeps a crossing in order. -/
theorem Crossing.inOrder_sample {w : Nat} {x : Crossing w} {dist : BitVec w → Nat}
    (h : x.inOrder dist) (old : Bool) : (x.sample old).inOrder dist := by
  obtain ⟨hlow, hhigh⟩ := Crossing.inOrder_sample_s1 h old
  exact ⟨hlow, hhigh, fun hc => absurd hc (by simp)⟩

/-- A crossing in order as measured from `b` is in order as measured from any point that its second
stage has reached. -/
theorem Crossing.inOrder_rebase {w : Nat} {x : Crossing w} {b b' : BitVec w}
    (h : x.inOrder (ahead b)) (hb : ahead b b' ≤ ahead b (gray2bin x.s2)) :
    x.inOrder (ahead b') := by
  obtain ⟨h21, h1s, hchg⟩ := h
  have hb1 := hb.trans h21
  refine ⟨ahead_le_of_rebase hb h21, ahead_le_of_rebase hb1 h1s, fun hc => ?_⟩
  obtain ⟨h1p, hps⟩ := hchg hc
  exact ⟨ahead_le_of_rebase hb1 h1p, ahead_le_of_rebase (hb1.trans h1p) hps⟩

end Sys2Proof.Machine
end

section
/-! The part of the invariant that the ring rests on, R41's pointer chain with the Gray copies of both
cursors: it follows from `Regs.Inv`, every operation keeps it, and it makes the status signals
conservative (R75, R76). -/

namespace Sys2Proof.Machine

/-- Both Gray pointers are the codes of their cursors, and the pointer chain holds. -/
structure RingOrdered {c : Params} (r : Regs c) : Prop where
  wg_src : r.wg.src = bin2gray r.wptr
  rg_src : r.rg.src = bin2gray r.rptr
  order : PointerOrder r

theorem Regs.Inv.ringOrdered {c : Params} {r : Regs c} (h : r.Inv) : RingOrdered r := by
  obtain ⟨⟨hwg, hrg, -⟩, hord, -⟩ := h
  exact ⟨hwg, hrg, hord⟩

section
variable {c : Params} {r : Regs c}

/-- R41's chain between the read cursor and the two views of the write cursor. -/
theorem RingOrdered.chain (h : RingOrdered r) :
    ahead (readView r) r.rptr ≤ ahead (readView r) (writeView r) ∧
      ahead (readView r) (writeView r) ≤ ahead (readView r) r.wptr := by
  obtain ⟨-, hrw, hw21, hw1s, -⟩ := h.order
  rw [h.wg_src, gray2bin_bin2gray] at hw1s
  exact ⟨hrw, hw21.trans hw1s⟩

/-- With `FULL = 0` a write cursor moved on is one further from the view of the read cursor (R75). -/
theorem ahead_inc_wptr (hf : full r = false) :
    ahead (readView r) (inc r.wptr) = ahead (readView r) r.wptr + 1 :=
  ahead_inc_of_ne fun he => by simp [full, he] at hf

/-- With `EMPTY = 0` the read cursor is strictly before the view of the write cursor (R76). -/
theorem RingOrdered.rptr_before_writeView (h : RingOrdered r) (he : empty r = false) :
    ahead (readView r) r.rptr < ahead (readView r) (writeView r) :=
  lt_of_le_of_ne h.chain.1 fun heq => by simp [empty, eq_of_ahead_eq heq] at he

/-- With `FULL = 0` there is room: the write cursor moved on does not meet the read cursor (R75). -/
theorem RingOrdered.inc_wptr_ne_rptr (h : RingOrdered r) (hf : full r = false) :
    inc r.wptr ≠ r.rptr := fun heq => by
  have hinc := ahead_inc_wptr hf
  obtain ⟨hrw, hww⟩ := h.chain
  rw [heq] at hinc
  omega

/-- With `EMPTY = 0` there is a frame: the cursors differ (R76). -/
theorem RingOrdered.rptr_ne_wptr (h : RingOrdered r) (he : empty r = false) : r.rptr ≠ r.wptr :=
  fun heq => by
    have hlt := h.rptr_before_writeView he
    obtain ⟨-, hww⟩ := h.chain
    rw [← heq] at hww
    omega

end

/-! ### The parts of an operation keep it -/

/-- RESET puts every pointer and every stage to 0 (R118). -/
theorem ringOrdered_reset {c : Params} (d : Drive) (r : Regs c) : RingOrdered (resetRegs d r) :=
  ⟨(bin2gray_zero _).symm, (bin2gray_zero _).symm,
    Crossing.inOrder_reset _, by simp [writeView], Crossing.inOrder_reset _⟩

/-- The read cursor's synchronizer moves the point the chain is measured from, which has reached no
later part of it. -/
theorem ringOrdered_captureCommon {c : Params} {r : Regs c} (h : RingOrdered r) (d : Drive) :
    RingOrdered (captureCommon d r) := by
  obtain ⟨hrg, hrw, hwg⟩ := h.order
  have hs1 : ahead (readView r) (gray2bin r.rg.s1) ≤ ahead (readView r) r.rptr := by
    obtain ⟨-, h1s, -⟩ := hrg
    rwa [h.rg_src, gray2bin_bin2gray] at h1s
  exact ⟨h.wg_src, h.rg_src,
    Crossing.inOrder_rebase (Crossing.inOrder_sample hrg d.rgOld) le_rfl,
    ahead_le_of_rebase hs1 hrw, Crossing.inOrder_rebase hwg (hs1.trans hrw)⟩

/-- The write cursor's synchronizer moves the drain domain's view of it forward. -/
theorem ringOrdered_drainCommon {c : Params} {r : Regs c} (h : RingOrdered r) (d : Drive) :
    RingOrdered (drainCommon d r) := by
  obtain ⟨hrg, hrw, hwg⟩ := h.order
  obtain ⟨h21, -, -⟩ := id hwg
  exact ⟨h.wg_src, h.rg_src, hrg, hrw.trans h21, Crossing.inOrder_sample hwg d.wgOld⟩

/-- A push moves the last point of the chain forward, and with `FULL = 0` not past the first. -/
theorem ringOrdered_push {c : Params} {r : Regs c} (h : RingOrdered r) (f : BitVec c.frameW) :
    RingOrdered (push f r).2 := by
  rcases push_cases f r with ⟨-, he⟩ | ⟨hf, he⟩ <;> rw [he]
  · exact h
  · obtain ⟨hrg, hrw, hwg⟩ := h.order
    have hmoved : (r.wg.write (bin2gray (inc r.wptr))).inOrder (ahead (readView r)) := by
      refine Crossing.inOrder_write hwg ?_
      rw [h.wg_src, gray2bin_bin2gray, gray2bin_bin2gray, ahead_inc_wptr hf]
      exact Nat.le_succ _
    have hview : ahead (readView r) r.rptr ≤
        ahead (readView r) (gray2bin (r.wg.write (bin2gray (inc r.wptr))).s2) := by
      rwa [Crossing.write_s2]
    exact ⟨Crossing.write_src _ _, h.rg_src, hrg, hview, hmoved⟩

/-- A pop moves the read cursor forward, and with `EMPTY = 0` not past the view of the write cursor. -/
theorem ringOrdered_pop {c : Params} {r : Regs c} (h : RingOrdered r) : RingOrdered (pop r).2 := by
  rcases pop_cases r with ⟨-, he⟩ | ⟨hf, he⟩ <;> rw [he]
  · exact h
  · obtain ⟨hrg, -, hwg⟩ := h.order
    have hlt := h.rptr_before_writeView hf
    have hinc := ahead_inc_of_lt hlt
    have hmoved : (r.rg.write (bin2gray (inc r.rptr))).inOrder (ahead (readView r)) := by
      refine Crossing.inOrder_write hrg ?_
      rw [h.rg_src, gray2bin_bin2gray, gray2bin_bin2gray, hinc]
      exact Nat.le_succ _
    have hview : readView { r with rptr := inc r.rptr, rg := r.rg.write (bin2gray (inc r.rptr)) } =
        readView r := congrArg gray2bin (Crossing.write_s2 _ _)
    refine ⟨h.wg_src, Crossing.write_src _ _, ?_⟩
    unfold PointerOrder
    rw [hview]
    exact ⟨hmoved, hinc.trans_le hlt, hwg⟩

theorem ringOrdered_deadbandUpdate {c : Params} {r : Regs c} (h : RingOrdered r) :
    RingOrdered (deadbandUpdate r) := ⟨h.wg_src, h.rg_src, h.order⟩

theorem ringOrdered_countDrop {c : Params} {r : Regs c} (h : RingOrdered r) :
    RingOrdered (countDrop r) := ⟨h.wg_src, h.rg_src, h.order⟩

/-- Every operation keeps the ring's part of the invariant. -/
theorem ringOrdered_effect {c : Params} {r : Regs c} (h : RingOrdered r) (i : Instr) (d : Drive) :
    RingOrdered (Instr.effect i d r) := by
  have hdeadband := ringOrdered_deadbandUpdate h
  cases i with
  | capArm | capQuiet | capReject => exact ringOrdered_captureCommon h d
  | capPush => exact ringOrdered_captureCommon (ringOrdered_push hdeadband _) d
  | capDrop => exact ringOrdered_captureCommon (ringOrdered_countDrop hdeadband) d
  | drnEmpty | drnHold => exact ringOrdered_drainCommon h d
  | drnPop => exact ringOrdered_drainCommon (ringOrdered_pop h) d
  | reset => exact ringOrdered_reset d r

end Sys2Proof.Machine
end

section
/-! What a step's select vector says about the operation it names: it is that operation's encoding
(R55 to R57), and the status bits in it are those of the registers. -/

namespace Sys2Proof.Machine

/-- A select vector is the encoding of the operation it decodes to. -/
theorem encode_of_decode {v : SelectVec} {i : Instr} (h : decode v = .ok i) : v = encode i := by
  have hcsel : ∀ u : BitVec 4, SelectVec.csel u = encode (decodeCsel u) := by decide
  have hdsel : ∀ u : BitVec 2, SelectVec.dsel u = encode (decodeDsel u) := by decide
  cases v with
  | csel u => injection h with h; rw [← h, hcsel u]
  | dsel u => injection h with h; rw [← h, hdsel u]
  | rstsel u =>
    obtain rfl | rfl := BitVec.eq_zero_or_eq_one u
    · cases h
    · injection h with h; rw [← h]; rfl

/-- Decoding recovers the operation from its encoding, ignored bits included. -/
theorem decode_encode (i : Instr) : decode (encode i) = .ok i := by
  cases i with
  | capArm e p f => cases e <;> cases p <;> cases f <;> rfl
  | capQuiet p f => cases p <;> cases f <;> rfl
  | capReject f | drnEmpty f => cases f <;> rfl
  | capPush | capDrop | drnHold | drnPop | reset => rfl

/-- A step that performs `i` has the select vector of no other operation. -/
theorem ne_encode_of_decode {v : SelectVec} {i j : Instr} (h : decode v = .ok i) (hne : i ≠ j) :
    v ≠ encode j := fun hv => by
  rw [hv, decode_encode] at h
  injection h with h
  exact hne h.symm

theorem bits4_getLsbD_zero : ∀ b3 b2 b1 b0 : Bool, (bits4 b3 b2 b1 b0).getLsbD 0 = b0 := by decide

theorem bits2_getLsbD_one : ∀ b1 b0 : Bool, (bits2 b1 b0).getLsbD 1 = b1 := by decide

/-- CAP_PUSH is selected with `FULL = 0` only (R56). -/
theorem full_of_selects_push {s : State} (h : s.selectVec = encode .capPush) :
    full s.regs = false := by
  unfold State.selectVec at h
  split at h
  · injection h with h
    calc full s.regs = (csel s.regs).getLsbD 0 := (bits4_getLsbD_zero _ _ _ _).symm
      _ = false := by rw [h]; rfl
  · cases h
  · cases h

/-- DRN_POP is selected with `OUT_VALID = 1` only (R57). -/
theorem outValid_of_selects_pop {s : State} (h : s.selectVec = encode .drnPop) :
    outValid s.regs = true := by
  unfold State.selectVec at h
  split at h
  · cases h
  · injection h with h
    calc outValid s.regs = (dsel s.regs s.drive.outReady).getLsbD 1 := (bits2_getLsbD_one _ _).symm
      _ = true := by rw [h]; rfl
  · cases h

end Sys2Proof.Machine
end

section
/-! The frames held, oldest first (R77), under a push and a pop. -/

namespace Sys2Proof.Machine

section
variable {c : Params} {r : Regs c}

/-- With `FULL = 0` a push writes slot `WPTR` and moves the write cursor on (R78). -/
theorem push_ring (hf : full r = false) (f : BitVec c.frameW) :
    (push f r).2.rptr = r.rptr ∧ (push f r).2.wptr = inc r.wptr ∧
      ∀ a, Memory.read (push f r).2.slots a =
        if a = r.wptr.toNat then some f else Memory.read r.slots a := by
  obtain ⟨hfull, -⟩ | ⟨-, he⟩ := push_cases f r
  · rw [hf] at hfull; cases hfull
  · rw [he]; exact ⟨rfl, rfl, memWrite_read r r.wptr f⟩

/-- With `EMPTY = 0` a pop moves the read cursor on and writes no slot (R79). -/
theorem pop_ring (he : empty r = false) :
    (pop r).2.rptr = inc r.rptr ∧ (pop r).2.wptr = r.wptr ∧ (pop r).2.slots = r.slots := by
  obtain ⟨hempty, -⟩ | ⟨-, hp⟩ := pop_cases r
  · rw [he] at hempty; cases hempty
  · rw [hp]; exact ⟨rfl, rfl, rfl⟩

theorem memRead_congr {r' : Regs c} {i : BitVec c.ptrW}
    (h : Memory.read r'.slots i.toNat = Memory.read r.slots i.toNat) :
    memRead r' i = memRead r i := congrArg (Option.getD · _) h

theorem occupancy_lt (r : Regs c) : occupancy r < 2 ^ c.ptrW := (r.wptr - r.rptr).isLt

@[simp] theorem liveIndex_zero (r : Regs c) : liveIndex r 0 = r.rptr := BitVec.add_zero _

/-- The slot after the newest frame's is `WPTR`'s. -/
theorem liveIndex_occupancy (r : Regs c) : liveIndex r (occupancy r) = r.wptr := by
  unfold liveIndex occupancy ahead
  rw [BitVec.ofNat_toNat, BitVec.setWidth_eq, BitVec.add_comm, BitVec.sub_add_cancel]

/-- No frame held stands in slot `WPTR`: its distance from the read cursor is its own place. -/
theorem liveIndex_ne_wptr {k : Nat} (h : k < occupancy r) : liveIndex r k ≠ r.wptr := fun he => by
  have hk : ahead r.rptr (liveIndex r k) = k := ahead_add_ofNat _ (h.trans (occupancy_lt r))
  rw [he] at hk
  exact absurd hk h.ne'

/-- With `FULL = 0` a push changes the slot of no frame held (R42). -/
theorem push_read_liveIndex (hf : full r = false) (f : BitVec c.frameW) {k : Nat}
    (hk : k < occupancy r) : Memory.read (push f r).2.slots (liveIndex r k).toNat =
      Memory.read r.slots (liveIndex r k).toNat := by
  obtain ⟨-, -, hread⟩ := push_ring hf f
  rw [hread, if_neg fun heq => liveIndex_ne_wptr hk (BitVec.eq_of_toNat_eq heq)]

/-- With `FULL = 0` a push adds its frame behind those held and changes none of them (R78). -/
theorem RingOrdered.contents_push (h : RingOrdered r) (hf : full r = false) (f : BitVec c.frameW) :
    contents (push f r).2 = contents r ++ [f] := by
  obtain ⟨hrptr, hwptr, hread⟩ := push_ring hf f
  have hocc : occupancy (push f r).2 = occupancy r + 1 := by
    unfold occupancy
    rw [hrptr, hwptr, ahead_inc_of_ne (h.inc_wptr_ne_rptr hf)]
  have hidx : ∀ k, liveIndex (push f r).2 k = liveIndex r k := fun k => by
    rw [liveIndex, hrptr, liveIndex]
  have hold : ∀ k ∈ List.range (occupancy r),
      memRead (push f r).2 (liveIndex (push f r).2 k) = memRead r (liveIndex r k) := fun k hk => by
    rw [hidx, memRead_congr (push_read_liveIndex hf f (List.mem_range.mp hk))]
  have hnew : memRead (push f r).2 (liveIndex (push f r).2 (occupancy r)) = f :=
    memRead_of_read (by rw [hidx, liveIndex_occupancy, hread, if_pos rfl])
  unfold contents
  rw [hocc, List.range_succ, List.map_append, List.map_congr_left hold, List.map_singleton, hnew]

/-- With `OUT_VALID = 1` a pop removes the oldest frame, which is the one shown (R79, R97). -/
theorem RingOrdered.contents_pop (h : RingOrdered r) (hv : outValid r = true) :
    contents r = (outFrame r).toList ++ contents (pop r).2 := by
  have he : empty r = false := by simpa [outValid] using hv
  obtain ⟨hrptr, hwptr, hslots⟩ := pop_ring he
  have hpos : ahead r.rptr r.rptr < ahead r.rptr r.wptr := by
    rw [ahead_self]
    exact Nat.pos_of_ne_zero fun h0 =>
      h.rptr_ne_wptr he (eq_of_ahead_eq ((ahead_self r.rptr).trans h0.symm))
  have hocc : occupancy r = occupancy (pop r).2 + 1 := by
    have hinc := ahead_inc_of_lt hpos
    unfold occupancy
    rw [hrptr, hwptr, ahead_rebase (hinc.trans_le hpos), hinc, ahead_self]
    omega
  have hnext : ∀ k, memRead r (liveIndex r (k + 1)) =
      memRead (pop r).2 (liveIndex (pop r).2 k) := fun k => by
    have hidx : liveIndex (pop r).2 k = liveIndex r (k + 1) := by
      rw [liveIndex, liveIndex, hrptr, inc, BitVec.ofNat_add, BitVec.add_assoc, BitVec.add_comm 1#_]
    rw [hidx, memRead_congr (by rw [hslots])]
  unfold contents
  rw [hocc, List.range_succ_eq_map, List.map_cons, List.map_map, liveIndex_zero, outFrame, if_pos hv]
  exact congrArg (List.cons _) (List.map_congr_left fun k _ => hnext k)

end
end Sys2Proof.Machine
end

section
/-! R44: the frames held are a queue under one step, and so over any run. -/

namespace Sys2Proof.Machine

theorem pushed_of_ne_capPush {s : State} {i : Instr} (hi : decode s.selectVec = .ok i)
    (hne : i ≠ .capPush) : s.pushed = none := if_neg (ne_encode_of_decode hi hne)

theorem popped_of_ne_drnPop {s : State} {i : Instr} (hi : decode s.selectVec = .ok i)
    (hne : i ≠ .drnPop) : s.popped = none := if_neg (ne_encode_of_decode hi hne)

/-- R44 for one step that is not RESET: the frame pushed is added at the end, the frame popped is the
first. -/
theorem RingOrdered.effect_queue {s : State} {i : Instr} (h : RingOrdered s.regs)
    (hi : decode s.selectVec = .ok i) (hreset : i ≠ .reset) :
    contents s.regs ++ s.pushed.toList =
      s.popped.toList ++ contents (Instr.effect i s.drive s.regs) := by
  cases i with
  | capPush =>
    have hv := encode_of_decode hi
    rw [popped_of_ne_drnPop hi nofun, State.pushed, if_pos hv]
    exact ((ringOrdered_deadbandUpdate h).contents_push (full_of_selects_push hv) _).symm
  | drnPop =>
    have hv := encode_of_decode hi
    rw [pushed_of_ne_capPush hi nofun, State.popped, if_pos hv, Option.toList_none, List.append_nil]
    exact h.contents_pop (outValid_of_selects_pop hv)
  | capArm | capQuiet | capReject | capDrop | drnEmpty | drnHold =>
    rw [pushed_of_ne_capPush hi nofun, popped_of_ne_drnPop hi nofun, Option.toList_none,
      List.append_nil, List.nil_append]
    rfl
  | reset => exact absurd rfl hreset

section
variable {s t : State}

theorem State.pushes_succ (h : step s = .next t) (n : Nat) :
    s.pushes (n + 1) = s.pushed.toList.map BitVec.toNat ++ t.pushes n := by
  rw [State.pushes, h, Option.toList_map]

theorem State.pops_succ (h : step s = .next t) (n : Nat) :
    s.pops (n + 1) = s.popped.toList.map BitVec.toNat ++ t.pops n := by
  rw [State.pops, h, Option.toList_map]

theorem State.operations_succ {i : Instr} (hi : decode s.selectVec = .ok i)
    (h : step s = .next t) (n : Nat) : s.operations (n + 1) = i :: t.operations n := by
  rw [State.operations, hi, h]

end

/-- R44 over a run: what was held and pushed is what was popped and is held, in order. -/
theorem RingOrdered.run_queue {s t : State} {n : Nat} (h : RingOrdered s.regs)
    (hrun : s.run n = .next t) (hreset : Instr.reset ∉ s.operations n) :
    (contents s.regs).map BitVec.toNat ++ s.pushes n =
      s.pops n ++ (contents t.regs).map BitVec.toNat := by
  induction n generalizing s with
  | zero =>
    injection hrun with hst
    subst hst
    exact List.append_nil _
  | succ n ih =>
    obtain ⟨u, hstep, hrest⟩ := State.run_succ hrun
    obtain ⟨-, -, i, hi, hu⟩ := step_next hstep
    rw [State.operations_succ hi hstep, List.mem_cons, not_or] at hreset
    obtain ⟨hne, hlater⟩ := hreset
    have hfirst : (contents s.regs).map BitVec.toNat ++ s.pushed.toList.map BitVec.toNat =
        s.popped.toList.map BitVec.toNat ++ (contents u.regs).map BitVec.toNat := by
      have hqueue := congrArg (List.map BitVec.toNat) (h.effect_queue hi (Ne.symm hne))
      rw [List.map_append, List.map_append] at hqueue
      rw [hu]
      exact hqueue
    have hkept : RingOrdered u.regs := by
      rw [hu]
      exact ringOrdered_effect h i s.drive
    rw [State.pushes_succ hstep, State.pops_succ hstep, ← List.append_assoc, hfirst,
      List.append_assoc, ih hkept hrest hlater, List.append_assoc]

/-- Settles O42, by induction on the run: every step takes the frames held forward as a queue, and keeps
the pointer chain on which that rests. -/
theorem runsAreFirstInFirstOut : Obligations.RunsAreFirstInFirstOut :=
  fun _ _ _ ⟨_, hinv⟩ hrun hreset => hinv.ringOrdered.run_queue hrun hreset

end Sys2Proof.Machine
end

section
/-! R42: which slot a step can write. -/

namespace Sys2Proof.Machine

/-- Only CAP_PUSH writes a slot (R42). -/
theorem effect_slots {c : Params} {i : Instr} (hne : i ≠ .capPush) (d : Drive) (r : Regs c) :
    (Instr.effect i d r).slots = r.slots := by
  cases i with
  | capArm | capQuiet | capReject | capDrop | drnEmpty | drnHold | reset => rfl
  | capPush => exact absurd rfl hne
  | drnPop => exact (congrArg Regs.slots (pop_frame r) :)

/-- Settles O44: only a CAP_PUSH writes a slot, and `WPTR`'s slot holds no frame. -/
theorem noFalseOverwrite : Obligations.NoFalseOverwrite := by
  intro s r' _ hstep
  obtain ⟨i, hi, rfl⟩ := step_after hstep
  refine ⟨fun k hk => ?_, fun a ha => ?_, fun _ k hk => liveIndex_ne_wptr hk⟩
  · by_cases hpush : i = .capPush
    · subst hpush
      exact push_read_liveIndex (r := deadbandUpdate s.regs)
        (full_of_selects_push (encode_of_decode hi)) _ hk
    · rw [effect_slots hpush]
  · have hpush : i = .capPush := by
      by_contra hne
      exact ha (by rw [effect_slots hne])
    subst hpush
    have hv := encode_of_decode hi
    have hf := full_of_selects_push hv
    refine ⟨hv, hf, ?_⟩
    by_contra hne
    obtain ⟨-, -, hread⟩ := push_ring (r := deadbandUpdate s.regs) hf
      (encodeFrame s.regs.ts (snapshot s.regs))
    exact ha ((hread a).trans (if_neg hne))

end Sys2Proof.Machine
end

section
/-! The fields of a record as R59 and R64 write them, and the record they are joined to. -/

namespace Sys2Proof.Machine

/-! ### Lists joined by a separator -/

/-- Of a character that no part holds, the joined list holds only what the separators hold. -/
theorem count_intercalate {sep : List Char} {c : Char} {ls : List (List Char)}
    (h : ∀ l ∈ ls, c ∉ l) : (sep.intercalate ls).count c = (ls.length - 1) * sep.count c := by
  induction ls with
  | nil => simp
  | cons l rest ih =>
    obtain ⟨hl, hrest⟩ := List.forall_mem_cons.mp h
    have hl0 : l.count c = 0 := List.count_eq_zero.mpr hl
    cases rest with
    | nil => simpa using hl0
    | cons l' rest =>
      calc (sep.intercalate (l :: l' :: rest)).count c
          = sep.count c + (sep.intercalate (l' :: rest)).count c := by
            rw [List.intercalate_cons_cons, List.count_append, List.count_append, hl0, Nat.zero_add]
        _ = ((l :: l' :: rest).length - 1) * sep.count c := by
            rw [ih hrest]
            simp only [List.length_cons, Nat.add_sub_cancel]
            ring

/-! ### The frame's numbers -/

section
variable {tsW : Nat} (f : BitVec (tsW + 17))

theorem frameTimestamp_toNat : (frameTimestamp f).toNat = f.toNat / 2 ^ 17 := by
  have hf : f.toNat < 2 ^ tsW * 2 ^ 17 := Nat.pow_add 2 tsW 17 ▸ f.isLt
  have hlt : f.toNat / 2 ^ 17 < 2 ^ tsW := Nat.div_lt_of_lt_mul (Nat.mul_comm _ _ ▸ hf)
  rw [frameTimestamp, BitVec.extractLsb'_toNat, Nat.shiftRight_eq_div_pow, Nat.mod_eq_of_lt hlt]

theorem frameData_toNat : (frameData f).toNat = f.toNat % 256 := by
  rw [frameData, BitVec.extractLsb'_toNat, Nat.shiftRight_zero]

/-! ### The fields in their order -/

/-- A hexadecimal digit is the alphabet's character at the digit's place (R64). -/
theorem hexAlphabet_getElem? (n : Nat) : hexAlphabet[n % 16]? = some (hexDigit n) := by
  have htable : ∀ m < 16, hexAlphabet[m]? = some (Nat.digitChar m) := by decide
  exact htable _ (Nat.mod_lt _ (by decide))

theorem recordFields_length : (recordFields f).length = 11 := rfl

theorem recordFields_timestamp :
    (recordFields f)[0]? = some (Nat.toDigits 10 (f.toNat / 2 ^ 17)) := by
  rw [← frameTimestamp_toNat]; rfl

theorem recordFields_data : ∃ h l, (recordFields f)[1]? = some [h, l] ∧
    hexAlphabet[f.toNat % 256 / 16]? = some h ∧ hexAlphabet[f.toNat % 16]? = some l := by
  have hhigh : f.toNat % 256 / 16 = (frameData f).toNat / 16 % 16 := by
    rw [frameData_toNat]; omega
  have hlow : f.toNat % 16 = (frameData f).toNat % 16 := by
    rw [frameData_toNat]; omega
  rw [hhigh, hlow]
  exact ⟨_, _, rfl, hexAlphabet_getElem? _, hexAlphabet_getElem? _⟩

theorem recordFields_status {k : Nat} (hk : k < 9) :
    (recordFields f)[k + 2]? = some [if f.getLsbD (8 + k) then '1' else '0'] := by
  calc (recordFields f)[k + 2]? = ((List.range 9).map fun j => [chr (frameBit f j)])[k]? := rfl
    _ = some [chr (frameBit f k)] := by
      rw [List.getElem?_map, List.getElem?_range hk, Option.map_some]

/-! ### The characters of a field -/

theorem dec_alphanum (n : Nat) : ∀ x ∈ dec n, x.isAlphanum = true := fun x hx => by
  have hdigit : x.isDigit = true := Nat.isDigit_of_mem_toDigits (b := 10) (by decide) (by decide) hx
  rw [Char.isAlphanum, hdigit, Bool.or_true]

theorem hexDigit_alphanum (n : Nat) : (hexDigit n).isAlphanum = true := by
  have htable : hexAlphabet.all Char.isAlphanum = true := rfl
  exact List.all_eq_true.mp htable _ (List.mem_of_getElem? (hexAlphabet_getElem? n))

theorem chr_alphanum (b : Bool) : (chr b).isAlphanum = true := by cases b <;> rfl

/-- A field is not empty, and holds letters and digits only (R64). -/
theorem recordFields_alphanum :
    ∀ g ∈ recordFields f, g ≠ [] ∧ ∀ x ∈ g, x.isAlphanum = true := by
  intro g hg
  obtain rfl | rfl | hstatus := by simpa only [recordFields, List.mem_cons] using hg
  · exact ⟨Nat.toDigits_ne_nil, dec_alphanum _⟩
  · exact ⟨nofun, by simp [hex2, hexDigit_alphanum]⟩
  · obtain ⟨k, -, rfl⟩ := List.mem_map.mp hstatus
    exact ⟨nofun, by simp [chr_alphanum]⟩

/-- Any other character, the comma and the space among them, stands in no field (R59). -/
theorem not_mem_recordFields {c : Char} (hc : c.isAlphanum = false) :
    ∀ g ∈ recordFields f, c ∉ g := fun g hg hmem => by
  obtain ⟨-, halpha⟩ := recordFields_alphanum f g hg
  exact absurd (halpha c hmem) (by simp [hc])

/-- Ten separators and the fields: what a record holds of a character that no field does. -/
theorem record_count {c : Char} (hc : c.isAlphanum = false) :
    (record f).count c = 10 * [','].count c := count_intercalate (not_mem_recordFields f hc)

end

/-- Settles O15: each field from the frame's bits, and no field holds a comma or a space, so that
the record's commas are its separators. -/
theorem recordShape : Obligations.RecordShape := by
  intro tsW f
  refine ⟨recordFields_length f, recordFields_timestamp f, recordFields_data f,
    fun k hk => recordFields_status f hk, fun g hg => ?_, rfl, record_count f rfl, ?_⟩
  · obtain ⟨hne, -⟩ := recordFields_alphanum f g hg
    exact ⟨hne, not_mem_recordFields f rfl g hg, not_mem_recordFields f rfl g hg⟩
  · exact List.count_eq_zero.mp (record_count f rfl)

end Sys2Proof.Machine
end

section
/-! Each select vector fits one row of the opcode table (R58), and which select bits a block can
form (R56). -/

namespace Sys2Proof

/-! ### The rows of the opcode table -/

/-- The rows of spec/opcode_table.json, one for each constructor of `Instr`. -/
def opcodeRows : List OpRow :=
  [.capArm false false false, .capQuiet false false, .capReject false, .capPush, .capDrop,
    .drnEmpty false, .drnHold, .drnPop, .reset].map Instr.row

theorem Instr.row_mem (i : Instr) : i.row ∈ opcodeRows := by
  cases i <;> simp [Instr.row, opcodeRows]

/-- Two rows that fit one select vector have its format, and their match values agree on the bits
that both of them test. -/
theorem OpRow.agree_of_fits {a b : OpRow} {v : SelectVec} (ha : a.fits v = true)
    (hb : b.fits v = true) : a.format = b.format ∧ a.value &&& b.mask = b.value &&& a.mask := by
  simp only [OpRow.fits, Bool.and_eq_true, decide_eq_true_eq] at ha hb
  obtain ⟨hfa, hva⟩ := ha
  obtain ⟨hfb, hvb⟩ := hb
  exact ⟨hfa.trans hfb.symm, by rw [← hva, ← hvb, Nat.and_right_comm]⟩

/-- Different rows of one format differ in a bit that both of them test. -/
theorem opcodeRows_eq_of_agree : ∀ a ∈ opcodeRows, ∀ b ∈ opcodeRows, a.format = b.format →
    a.value &&& b.mask = b.value &&& a.mask → a = b := by decide

/-- An operation's select vector fits its row. -/
theorem row_fits_encode (i : Instr) : i.row.fits (encode i) = true := by
  cases i with
  | capArm e p f => exact Laws.TablePattern.capArm e p f
  | capQuiet p f => exact Laws.TablePattern.capQuiet p f
  | capReject f => exact Laws.TablePattern.capReject f
  | capPush => exact Laws.TablePattern.capPush
  | capDrop => exact Laws.TablePattern.capDrop
  | drnEmpty r => exact Laws.TablePattern.drnEmpty r
  | drnHold => exact Laws.TablePattern.drnHold
  | drnPop => exact Laws.TablePattern.drnPop
  | reset => exact Laws.TablePattern.reset

/-- Of the table's rows exactly the decoded operation's fits a select vector (R58). -/
theorem row_fits_iff {v : SelectVec} {i : Instr} (h : decode v = .ok i) (j : Instr) :
    j.row.fits v = true ↔ j.row = i.row := by
  have hi : i.row.fits v = true := by
    rw [Machine.encode_of_decode h]
    exact row_fits_encode i
  constructor
  · intro hj
    obtain ⟨hformat, hvalue⟩ := OpRow.agree_of_fits hj hi
    exact opcodeRows_eq_of_agree _ j.row_mem _ i.row_mem hformat hvalue
  · intro heq
    rw [heq]
    exact hi

/-! ### What the vectors of each clock decode to -/

theorem decodeCsel_isCapture (v : BitVec 4) : (decodeCsel v).isCapture = true := by
  unfold decodeCsel
  split <;> rfl

theorem decodeDsel_isDrain (v : BitVec 2) : (decodeDsel v).isDrain = true := by
  unfold decodeDsel
  split <;> rfl

/-- `CSEL = 0---` is CAP_ARM, `01--` included (R58). -/
theorem decodeCsel_of_not_armed {v : BitVec 4} (h : v.getLsbD 3 = false) :
    decodeCsel v = .capArm (v.getLsbD 2) (v.getLsbD 1) (v.getLsbD 0) := by
  unfold decodeCsel
  rw [h]

end Sys2Proof

namespace Sys2Proof.Machine

/-! ### The select bits a block forms -/

theorem bits4_getLsbD_three : ∀ b3 b2 b1 b0 : Bool, (bits4 b3 b2 b1 b0).getLsbD 3 = b3 := by decide

theorem bits4_getLsbD_two : ∀ b3 b2 b1 b0 : Bool, (bits4 b3 b2 b1 b0).getLsbD 2 = b2 := by decide

/-- `EDGE = 0` whenever `ARMED = 0` (R86). -/
theorem edge_of_not_armed {c : Params} {r : Regs c} (h : armed r = false) : edge r = false := by
  rw [edge, h, Bool.false_and]

/-- No register file forms a `CSEL` of the shape `01--` (R58). -/
theorem csel_bit_two_of_bit_three {c : Params} {r : Regs c} (h : (csel r).getLsbD 3 = false) :
    (csel r).getLsbD 2 = false :=
  calc (csel r).getLsbD 2 = edge r := bits4_getLsbD_two _ _ _ _
    _ = false := edge_of_not_armed ((bits4_getLsbD_three _ _ _ _).symm.trans h)

/-- Settles O1: decoding splits on the select bits, the rows exclude each other on the bits they
test, and `EDGE` is 0 while `ARMED` is. -/
theorem selectDecodesAreTotal : Obligations.SelectDecodesAreTotal := by
  refine ⟨fun v => ⟨_, rfl, decodeCsel_isCapture v⟩, fun v => ⟨_, rfl, decodeDsel_isDrain v⟩,
    fun v i j h => row_fits_iff h j,
    fun v h => ⟨_, _, _, congrArg Except.ok (decodeCsel_of_not_armed h)⟩, ?_⟩
  rintro c r ⟨harmed, hedge⟩
  rw [csel_bit_two_of_bit_three harmed] at hedge
  cases hedge

end Sys2Proof.Machine
end

section
/-! The operation of a step with `RST` at both domains (R55). -/

namespace Sys2Proof.Machine

/-- With `RST` at both domains or at none a step is its select vector's operation (R55). -/
theorem step_eq_exec {s : State} {i : Instr} (hrst : s.drive.rst = .released ∨ s.drive.rst = .both)
    (hi : decode s.selectVec = .ok i) : step s = exec i s := by
  unfold step
  rw [hi]
  obtain h | h := hrst <;> rw [h]

/-- With `RST` at both domains no status signal and no clock enters the select vector (R55). -/
theorem selectVec_of_reset {s : State} (h : s.drive.rst = .both) : s.selectVec = .rstsel 1#1 := by
  unfold State.selectVec
  rw [h]

/-- `RSTSEL = 0` names no operation (R55). -/
theorem decode_reset_released (i : Instr) : decode (.rstsel 0#1) ≠ .ok i := nofun

/-- Settles O6: the select vector of such a step is RESET's encoding. -/
theorem resetOverridesSelection : Obligations.ResetOverridesSelection := by
  refine ⟨fun s hrst => ?_, decode_encode .reset, decode_reset_released⟩
  have hv : s.selectVec = encode .reset := selectVec_of_reset hrst
  have hdecode : decode s.selectVec = .ok .reset := by rw [hv, decode_encode]
  exact ⟨hv, step_eq_exec (.inr hrst) hdecode⟩

end Sys2Proof.Machine
end

section
/-! The encoder (R62): the number a frame word is, and the field accessors of R54 on an encoded frame. -/

namespace Sys2Proof.Machine

section
variable {tsW : Nat} (t : BitVec tsW) (p : Lines)

/-- The snapshot is below the timestamp's weight, so joining the two words adds their numbers. -/
theorem encodeFrame_toNat : (encodeFrame t p).toNat = t.toNat * 2 ^ 17 + p.toNat :=
  calc (encodeFrame t p).toNat = t.toNat <<< 17 ||| p.toNat := BitVec.toNat_append t p
    _ = t.toNat <<< 17 + p.toNat := (Nat.shiftLeft_add_eq_or_of_lt p.isLt _).symm
    _ = t.toNat * 2 ^ 17 + p.toNat := by rw [Nat.shiftLeft_eq]

@[simp] theorem frameTimestamp_encodeFrame : frameTimestamp (encodeFrame t p) = t :=
  BitVec.extractLsb'_append_eq_left

@[simp] theorem frameSignal_encodeFrame :
    frameSignal (encodeFrame t p) = p.extractLsb' 8 9 :=
  BitVec.extractLsb'_append_eq_of_add_le (by decide)

@[simp] theorem frameData_encodeFrame : frameData (encodeFrame t p) = p.extractLsb' 0 8 :=
  BitVec.extractLsb'_append_eq_of_add_le (by decide)

/-- The 9 status bits lie in the snapshot's part of the frame. -/
theorem frameBit_encodeFrame {k : Nat} (hk : k < 9) :
    frameBit (encodeFrame t p) k = p.getLsbD (8 + k) := by
  have hlow : 8 + k < 17 := by omega
  rw [frameBit, encodeFrame, BitVec.getLsbD_append, if_pos hlow]

/-- Timestamp 0 adds nothing to the snapshot's number. -/
theorem encodeFrame_zero : encodeFrame 0#tsW p = p.setWidth (tsW + 17) := by
  apply BitVec.eq_of_toNat_eq
  rw [encodeFrame_toNat, BitVec.toNat_setWidth_of_le (Nat.le_add_left 17 tsW)]
  simp

theorem encodeFrame_allOnes_toNat :
    (encodeFrame (BitVec.allOnes tsW) p).toNat = (2 ^ tsW - 1) * 2 ^ 17 + p.toNat := by
  rw [encodeFrame_toNat, BitVec.toNat_allOnes]

end

/-- Settles O14: the frame is the sum of its two parts, each field lies within one of them, and the
corner timestamps are instances of the sum. -/
theorem frameFieldsComeBack : Obligations.FrameFieldsComeBack := fun _ t p =>
  ⟨encodeFrame_toNat t p, frameTimestamp_encodeFrame t p, frameSignal_encodeFrame t p,
    frameData_encodeFrame t p, fun _ hk => frameBit_encodeFrame t p hk, encodeFrame_zero p,
    encodeFrame_allOnes_toNat p, by decide⟩

end Sys2Proof.Machine
end

section
/-! R67: the deadband's state under each operation, and which capture steps accept an edge event. -/

namespace Sys2Proof.Machine

/-! ### The operations -/

theorem accepts_iff {i : Instr} : i.accepts = true ↔ i = .capPush ∨ i = .capDrop := by
  simp [Instr.accepts]

/-- `Push` leaves the deadband's state, whether it succeeds or not (R78). -/
theorem push_sameDeadband {c : Params} (f : BitVec c.frameW) (r : Regs c) :
    SameDeadband r (push f r).2 :=
  ⟨(congrArg Regs.lastT (push_frame f r) :), (congrArg Regs.lastValid (push_frame f r) :)⟩

/-- The accepting operations make R67's update, with the frame pushed or dropped. -/
theorem effect_deadband_of_accepts {c : Params} {i : Instr} (h : i.accepts = true) (d : Drive)
    (r : Regs c) : (Instr.effect i d r).lastT = r.ts ∧ (Instr.effect i d r).lastValid = true := by
  obtain rfl | rfl := accepts_iff.mp h
  · exact push_sameDeadband _ (deadbandUpdate r)
  · exact ⟨rfl, rfl⟩

/-- Of the other operations only RESET writes the deadband's state (R67, R118). -/
theorem effect_sameDeadband {c : Params} {i : Instr} (h : ¬i.accepts = true) (hreset : i ≠ .reset)
    (d : Drive) (r : Regs c) : SameDeadband r (Instr.effect i d r) := by
  cases i with
  | capArm | capQuiet | capReject | drnEmpty | drnHold => exact ⟨rfl, rfl⟩
  | drnPop =>
    exact ⟨(congrArg Regs.lastT (pop_frame r) :), (congrArg Regs.lastValid (pop_frame r) :)⟩
  | capPush => exact absurd (accepts_iff.mpr (.inl rfl)) h
  | capDrop => exact absurd (accepts_iff.mpr (.inr rfl)) h
  | reset => exact absurd rfl hreset

/-! ### The selection -/

/-- A capture edge without `RST` forms `CSEL` (R56). -/
theorem selectVec_of_capture {s : State} (hrst : s.drive.rst = .released)
    (hclock : s.drive.clock = .capture) : s.selectVec = .csel (csel s.regs) := by
  unfold State.selectVec
  rw [hrst, hclock]

/-- The rows of CAP_PUSH and CAP_DROP together are `111-` (R56). -/
theorem decodeCsel_bits4_accepts : ∀ a e p f : Bool,
    (decodeCsel (bits4 a e p f)).accepts = (a && e && p) := by decide

/-- An accepting operation is selected exactly with `EDGE = 1` and `PASS = 1`; `ARMED = 1` is part of
`EDGE = 1` (R86). -/
theorem decodeCsel_csel_accepts {c : Params} (r : Regs c) :
    (decodeCsel (csel r)).accepts = (edge r && pass r) := by
  have hedge : (armed r && edge r) = edge r := by rw [edge, Bool.and_self_left]
  calc (decodeCsel (csel r)).accepts = (armed r && edge r && pass r) :=
        decodeCsel_bits4_accepts _ _ _ _
    _ = (edge r && pass r) := by rw [hedge]

theorem decodeCsel_ne_reset (v : BitVec 4) : decodeCsel v ≠ .reset := fun h => by
  have hcapture := decodeCsel_isCapture v
  rw [h] at hcapture
  cases hcapture

/-- Settles O31: the operation selected accepts exactly with `EDGE = 1` and `PASS = 1`, and it writes
the deadband's state exactly if it accepts. -/
theorem deadbandUpdatesOnAcceptance : Obligations.DeadbandUpdatesOnAcceptance := by
  intro s r' hrst hclock hstep
  obtain ⟨i, hi, rfl⟩ := step_after hstep
  rw [selectVec_of_capture hrst hclock] at hi
  obtain rfl : decodeCsel (csel s.regs) = i := Except.ok.inj hi
  have haccepts : (decodeCsel (csel s.regs)).accepts = true ↔
      edge s.regs = true ∧ pass s.regs = true := by
    rw [decodeCsel_csel_accepts, Bool.and_eq_true]
  exact ⟨fun hedge hpass => effect_deadband_of_accepts (haccepts.mpr ⟨hedge, hpass⟩) _ _,
    fun hno => effect_sameDeadband (mt haccepts.mp hno) (decodeCsel_ne_reset _) _ _⟩

end Sys2Proof.Machine
end

section
/-! What the admissible builds give the proofs (R6, R9). -/

namespace Sys2Proof

/-- The ring of an admissible build has a slot for each value of a pointer, and at least two (R6). -/
theorem Params.ring_of_valid {c : Params} (h : c.valid = true) :
    2 ≤ c.ringN ∧ 2 ^ c.ptrW = c.ringN := by
  simp only [Params.valid, Params.ringOk, Bool.and_eq_true, decide_eq_true_eq] at h
  obtain ⟨⟨⟨⟨hring, -⟩, -⟩, -⟩, -⟩ := h
  exact hring

theorem Params.ptrW_pos {c : Params} (h : c.valid = true) : 0 < c.ptrW := by
  obtain ⟨htwo, hpow⟩ := Params.ring_of_valid h
  refine Nat.pos_of_ne_zero fun h0 => ?_
  rw [h0] at hpow
  omega

/-- The prescaler of an admissible build counts at least one edge (R9). -/
theorem Params.ticks_of_valid {c : Params} (h : c.valid = true) : 1 ≤ c.ticksPerUs := by
  simp only [Params.valid, Params.ticksOk, Bool.and_eq_true, decide_eq_true_eq] at h
  obtain ⟨⟨-, hticks⟩, -⟩ := h
  exact hticks

end Sys2Proof
end

section
/-! R73: `gray2bin` bit by bit, and the other inverse. -/

namespace Sys2Proof.Machine

/-- Moving a window of `n` neighbouring bits one place down takes in the bit below and gives up the
window's top bit. -/
theorem xorShifts_getLsbD_window {w : Nat} (g : BitVec w) (n i : Nat) :
    (xorShifts g n).getLsbD i =
      ((xorShifts g n).getLsbD (i + 1) ^^ (g.getLsbD i ^^ g.getLsbD (i + n))) := by
  induction n with
  | zero => simp [xorShifts]
  | succ n ih =>
    have hn : n + i = i + n := Nat.add_comm n i
    have hs : n + (i + 1) = i + (n + 1) := by omega
    have hcancel : ∀ a b p q : Bool, ((a ^^ (b ^^ p)) ^^ p) = ((a ^^ q) ^^ (b ^^ q)) := by decide
    rw [xorShifts_succ_getLsbD, xorShifts_succ_getLsbD, ih, hn, hs]
    exact hcancel _ _ _ _

/-- Bit `i` of `gray2bin g` is the result's next higher bit with bit `i` of `g` (R73). At the top the
next higher bit is outside the word, so 0. -/
theorem gray2bin_getLsbD {w : Nat} (g : BitVec w) (i : Nat) :
    (gray2bin g).getLsbD i = ((gray2bin g).getLsbD (i + 1) ^^ g.getLsbD i) := by
  have htop : g.getLsbD (i + w) = false := BitVec.getLsbD_of_ge g _ (Nat.le_add_left w i)
  rw [gray2bin, xorShifts_getLsbD_window, htop, Bool.xor_false]

theorem gray2bin_getLsbD_top {w : Nat} (g : BitVec w) (hw : 0 < w) :
    (gray2bin g).getLsbD (w - 1) = g.getLsbD (w - 1) := by
  have hout : (gray2bin g).getLsbD (w - 1 + 1) = false := BitVec.getLsbD_of_ge _ _ (by omega)
  rw [gray2bin_getLsbD, hout, Bool.false_xor]

/-- `bin2gray` undoes `gray2bin`: the next higher bit of the result cancels (R73). -/
@[simp] theorem bin2gray_gray2bin {w : Nat} (g : BitVec w) : bin2gray (gray2bin g) = g := by
  refine BitVec.eq_of_getLsbD_eq fun i _ => ?_
  rw [bin2gray_getLsbD, gray2bin_getLsbD, Nat.add_comm 1 i, Bool.xor_right_comm, Bool.xor_self,
    Bool.false_xor]

/-- Settles O12: the window recurrence at full width, and the two inverses. -/
theorem grayCodeConverts : Obligations.GrayCodeConverts :=
  ⟨fun _ g hw => ⟨gray2bin_getLsbD_top g hw, fun i _ => gray2bin_getLsbD g i⟩,
    fun _ => gray2bin_bin2gray, fun _ => bin2gray_gray2bin, by decide⟩

end Sys2Proof.Machine
end

section
/-! R74: the Gray codes of consecutive numbers. -/

namespace Sys2Proof.Machine

/-- The two words differ in exactly one bit. -/
abbrev OneBitApart {w : Nat} (a b : BitVec w) : Prop := ∃ k, k < w ∧ a ^^^ b = BitVec.twoPow w k

/-- Adding one flips a bit exactly if every bit below it is set. -/
theorem inc_xor_self_getLsbD {w : Nat} (p : BitVec w) {i : Nat} (hi : i < w) :
    (inc p ^^^ p).getLsbD i = decide (∀ j < i, p.getLsbD j = true) := by
  have hw : 0 < w := by omega
  rw [BitVec.getLsbD_xor, inc, BitVec.getLsbD_add hi, Bool.xor_right_comm, Bool.xor_self,
    Bool.false_xor, BitVec.getLsbD_one]
  cases i with
  | zero => simp [hw]
  | succ i => simp [BitVec.carry_succ_one i p hw]

/-- The highest bit that adding one flips: the lowest clear bit, or the top bit when those below it are
all set. -/
theorem exists_highest_flipped {w : Nat} (p : BitVec w) (hw : 0 < w) :
    ∃ k < w, (∀ j < k, p.getLsbD j = true) ∧ (k + 1 = w ∨ p.getLsbD k = false) := by
  have hex : ∃ k, k + 1 = w ∨ p.getLsbD k = false := ⟨w - 1, .inl (by omega)⟩
  have hle : Nat.find hex ≤ w - 1 := Nat.find_min' hex (.inl (by omega))
  refine ⟨Nat.find hex, by omega, fun j hj => ?_, Nat.find_spec hex⟩
  have hmin := Nat.find_min hex hj
  rw [not_or, Bool.not_eq_false] at hmin
  exact hmin.2

theorem bin2gray_xor {w : Nat} (a b : BitVec w) : bin2gray a ^^^ bin2gray b = bin2gray (a ^^^ b) := by
  rw [bin2gray, bin2gray, bin2gray, BitVec.ushiftRight_xor_distrib]
  ac_rfl

/-- The Gray code of a number of `k + 1` low ones is its highest bit alone. -/
theorem bin2gray_lowOnes {w k : Nat} {m : BitVec w} (hk : k < w)
    (hm : ∀ i < w, m.getLsbD i = decide (i ≤ k)) : bin2gray m = BitVec.twoPow w k := by
  refine BitVec.eq_of_getLsbD_eq fun i hi => ?_
  have hnext : m.getLsbD (1 + i) = decide (1 + i ≤ k) := by
    by_cases hlt : 1 + i < w
    · exact hm _ hlt
    · rw [BitVec.getLsbD_of_ge m _ (by omega), eq_comm, decide_eq_false_iff_not]
      omega
  rw [bin2gray_getLsbD, hm i hi, hnext, BitVec.getLsbD_twoPow]
  obtain h | h | h := lt_trichotomy i k
  · simp [show i ≤ k by omega, show 1 + i ≤ k by omega, h.ne']
  · simp [h, hk]
  · simp [show ¬i ≤ k by omega, show ¬1 + i ≤ k by omega, h.ne]

/-- The Gray codes of consecutive numbers differ in one bit, the wrap included (R74): adding one flips
the low bits up to one place, and the Gray code shows only the end of that block. -/
theorem bin2gray_inc {w : Nat} (p : BitVec w) (hw : 0 < w) :
    OneBitApart (bin2gray (inc p)) (bin2gray p) := by
  obtain ⟨k, hk, hbelow, hend⟩ := exists_highest_flipped p hw
  refine ⟨k, hk, ?_⟩
  rw [bin2gray_xor]
  refine bin2gray_lowOnes hk fun i hi => ?_
  rw [inc_xor_self_getLsbD p hi, decide_eq_decide]
  refine ⟨fun hall => ?_, fun hle j hj => hbelow j (by omega)⟩
  by_contra hlt
  obtain htop | hclear := hend
  · omega
  · rw [hall k (by omega)] at hclear
    cases hclear

/-- Only a word of at least one bit can be below its maximum. -/
theorem width_pos_of_lt_max {w : Nat} {x : BitVec w} (h : x.toNat < 2 ^ w - 1) : 0 < w :=
  Nat.pos_of_ne_zero fun h0 => by
    subst h0
    exact absurd h (Nat.not_lt_zero _)

/-- The saturating count stays at its maximum, or is one higher (R26). -/
theorem sat_succ_cases {w : Nat} (x : BitVec w) :
    sat w (x.toNat + 1) = x ∨ (x.toNat < 2 ^ w - 1 ∧ sat w (x.toNat + 1) = inc x) := by
  have hx := x.isLt
  by_cases hmax : x.toNat < 2 ^ w - 1
  · refine .inr ⟨hmax, BitVec.eq_of_toNat_eq ?_⟩
    rw [sat_toNat, inc_toNat, Nat.mod_eq_of_lt (by omega)]
    omega
  · refine .inl (BitVec.eq_of_toNat_eq ?_)
    rw [sat_toNat]
    omega

end Sys2Proof.Machine
end

section
/-! What the operations of each clock do beyond its common part (R87, R99): a capture operation leaves
the sampler and the read cursor's crossing to it, a drain operation the other two crossings. -/

namespace Sys2Proof.Machine

section
variable {c : Params}

theorem push_sameSampler (f : BitVec c.frameW) (r : Regs c) : SameSampler r (push f r).2 :=
  ⟨(congrArg Regs.inS1 (push_frame f r) :), (congrArg Regs.inS2 (push_frame f r) :),
    (congrArg Regs.inPrev (push_frame f r) :), (congrArg Regs.armCnt (push_frame f r) :),
    (congrArg Regs.presc (push_frame f r) :), (congrArg Regs.ts (push_frame f r) :)⟩

theorem push_sameConsumer (f : BitVec c.frameW) (r : Regs c) : SameConsumer r (push f r).2 :=
  ⟨(congrArg Regs.rptr (push_frame f r) :), (congrArg Regs.rg (push_frame f r) :)⟩

theorem push_sameDrops (f : BitVec c.frameW) (r : Regs c) : SameDrops r (push f r).2 :=
  ⟨(congrArg Regs.drop (push_frame f r) :), (congrArg Regs.dg (push_frame f r) :)⟩

theorem pop_sameDrops (r : Regs c) : SameDrops r (pop r).2 :=
  ⟨(congrArg Regs.drop (pop_frame r) :), (congrArg Regs.dg (pop_frame r) :)⟩

theorem pop_wg (r : Regs c) : (pop r).2.wg = r.wg := (congrArg Regs.wg (pop_frame r) :)

/-- A push writes the write cursor's crossing with the next cursor's code, or not at all (R78). -/
theorem push_wg (f : BitVec c.frameW) (r : Regs c) :
    (push f r).2.wg = r.wg ∨ (push f r).2.wg = r.wg.write (bin2gray (inc r.wptr)) := by
  obtain ⟨-, he⟩ | ⟨-, he⟩ := push_cases f r <;> rw [he]
  · exact .inl rfl
  · exact .inr rfl

/-- A pop writes the read cursor's crossing with the next cursor's code, or not at all (R79). -/
theorem pop_rg (r : Regs c) :
    (pop r).2.rg = r.rg ∨ (pop r).2.rg = r.rg.write (bin2gray (inc r.rptr)) := by
  obtain ⟨-, he⟩ | ⟨-, he⟩ := pop_cases r <;> rw [he]
  · exact .inl rfl
  · exact .inr rfl

/-- Every capture operation is the common part after writes that leave alone what the common part
reads, and the read cursor. -/
theorem effect_eq_captureCommon {i : Instr} (h : i.isCapture = true) (d : Drive) (r : Regs c) :
    ∃ r₀, Instr.effect i d r = captureCommon d r₀ ∧ SameSampler r r₀ ∧ SameConsumer r r₀ := by
  cases i with
  | capArm | capQuiet | capReject =>
    exact ⟨r, rfl, ⟨rfl, rfl, rfl, rfl, rfl, rfl⟩, rfl, rfl⟩
  | capPush =>
    exact ⟨_, rfl, push_sameSampler _ (deadbandUpdate r), push_sameConsumer _ (deadbandUpdate r)⟩
  | capDrop => exact ⟨_, rfl, ⟨rfl, rfl, rfl, rfl, rfl, rfl⟩, rfl, rfl⟩
  | drnEmpty | drnHold | drnPop | reset => cases h

/-- Every drain operation is the common part after writes that leave the producer's crossings alone. -/
theorem effect_eq_drainCommon {i : Instr} (h : i.isDrain = true) (d : Drive) (r : Regs c) :
    ∃ r₀, Instr.effect i d r = drainCommon d r₀ ∧ r₀.wg = r.wg ∧ r₀.dg = r.dg := by
  cases i with
  | drnEmpty | drnHold => exact ⟨r, rfl, rfl, rfl⟩
  | drnPop => exact ⟨_, rfl, pop_wg r, (pop_sameDrops r).2⟩
  | capArm | capQuiet | capReject | capPush | capDrop | reset => cases h

/-- A capture operation either leaves the write cursor's crossing, or writes the next cursor's code. -/
theorem effect_wg_of_isCapture {i : Instr} (h : i.isCapture = true) (d : Drive) (r : Regs c) :
    (Instr.effect i d r).wg = r.wg ∨
      (Instr.effect i d r).wg = r.wg.write (bin2gray (inc r.wptr)) := by
  cases i with
  | capArm | capQuiet | capReject | capDrop => exact .inl rfl
  | capPush => exact push_wg _ (deadbandUpdate r)
  | drnEmpty | drnHold | drnPop | reset => cases h

/-- A capture operation either leaves the drop count's crossing, or writes the next count's code. -/
theorem effect_dg_of_isCapture {i : Instr} (h : i.isCapture = true) (d : Drive) (r : Regs c) :
    (Instr.effect i d r).dg = r.dg ∨
      (Instr.effect i d r).dg = r.dg.write (bin2gray (sat c.dropW (r.drop.toNat + 1))) := by
  cases i with
  | capArm | capQuiet | capReject => exact .inl rfl
  | capPush => exact .inl (push_sameDrops _ (deadbandUpdate r)).2
  | capDrop => exact .inr rfl
  | drnEmpty | drnHold | drnPop | reset => cases h

/-- A drain operation either leaves the read cursor's crossing, or writes the next cursor's code. -/
theorem effect_rg_of_isDrain {i : Instr} (h : i.isDrain = true) (d : Drive) (r : Regs c) :
    (Instr.effect i d r).rg = r.rg ∨
      (Instr.effect i d r).rg = r.rg.write (bin2gray (inc r.rptr)) := by
  cases i with
  | drnEmpty | drnHold => exact .inl rfl
  | drnPop => exact pop_rg r
  | capArm | capQuiet | capReject | capPush | capDrop | reset => cases h

/-- A capture operation leaves the source of the read cursor's crossing (R95). -/
theorem effect_rg_src_of_isCapture {i : Instr} (h : i.isCapture = true) (d : Drive) (r : Regs c) :
    (Instr.effect i d r).rg.src = r.rg.src := by
  obtain ⟨r₀, he, -, -, hrg⟩ := effect_eq_captureCommon h d r
  rw [he, captureCommon_rg, Crossing.sample_src, hrg]

/-- A drain operation leaves the sources of the producer's crossings (R103). -/
theorem effect_producer_src_of_isDrain {i : Instr} (h : i.isDrain = true) (d : Drive) (r : Regs c) :
    (Instr.effect i d r).wg.src = r.wg.src ∧ (Instr.effect i d r).dg.src = r.dg.src := by
  obtain ⟨r₀, he, hwg, hdg⟩ := effect_eq_drainCommon h d r
  rw [he, drainCommon_wg, drainCommon_dg, Crossing.sample_src, Crossing.sample_src, hwg, hdg]
  exact ⟨rfl, rfl⟩

end

/-! ### The clock's operations -/

/-- A drain edge without `RST` forms `DSEL` (R57). -/
theorem selectVec_of_drain {s : State} (hrst : s.drive.rst = .released)
    (hclock : s.drive.clock = .drain) : s.selectVec = .dsel (dsel s.regs s.drive.outReady) := by
  unfold State.selectVec
  rw [hrst, hclock]

section
variable {s : State} {i : Instr}

/-- A capture edge without `RST` performs a capture operation (R56). -/
theorem isCapture_of_capture (hi : decode s.selectVec = .ok i) (hrst : s.drive.rst = .released)
    (hclock : s.drive.clock = .capture) : i.isCapture = true := by
  rw [selectVec_of_capture hrst hclock] at hi
  obtain rfl : decodeCsel (csel s.regs) = i := Except.ok.inj hi
  exact decodeCsel_isCapture _

/-- A drain edge without `RST` performs a drain operation (R57). -/
theorem isDrain_of_drain (hi : decode s.selectVec = .ok i) (hrst : s.drive.rst = .released)
    (hclock : s.drive.clock = .drain) : i.isDrain = true := by
  rw [selectVec_of_drain hrst hclock] at hi
  obtain rfl : decodeDsel (dsel s.regs s.drive.outReady) = i := Except.ok.inj hi
  exact decodeDsel_isDrain _

end

end Sys2Proof.Machine
end

section
/-! R87, R88, R99, R82: the common part of every edge. -/

namespace Sys2Proof.Machine

/-- With a prescaler that counts (R9), the common part of a capture step does what R87, R88 and R82
say. -/
theorem captureCommon_effect {c : Params} (hticks : 1 ≤ c.ticksPerUs) (d : Drive) (r : Regs c) :
    CaptureCommonEffect d r (captureCommon d r) := by
  have harmed : armed r = true ↔ r.armCnt = 3#2 := by rw [armed, beq_iff_eq]
  have hsampled := Crossing.sample_sampled r.rg d.rgOld
  refine ⟨rfl, rfl, rfl, nextArmCnt_toNat r, ?_⟩
  rw [captureCommon_presc, captureCommon_ts]
  obtain ⟨hno, hp, ht⟩ | ⟨harm, hlast, hp, ht⟩ | ⟨harm, hlast, hp, ht⟩ := time_cases r <;> rw [hp, ht]
  · have hne : r.armCnt ≠ 3#2 := mt harmed.mpr (by rw [hno]; nofun)
    exact ⟨fun h => absurd h hne, fun h => absurd h hne, fun _ => ⟨rfl, rfl⟩, hsampled⟩
  · have hpresc : r.presc.toNat = c.ticksPerUs - 1 := by omega
    exact ⟨fun _ _ => ⟨rfl, inc_toNat r.ts⟩, fun _ hne => absurd hpresc hne,
      fun hne => absurd (harmed.mp harm) hne, hsampled⟩
  · have hpresc : r.presc.toNat ≠ c.ticksPerUs - 1 := by omega
    exact ⟨fun _ heq => absurd heq hpresc, fun _ _ => ⟨rfl, rfl⟩,
      fun hne => absurd (harmed.mp harm) hne, hsampled⟩

/-- What the common part does depends on the sampler and the read cursor's crossing only. -/
theorem CaptureCommonEffect.of_same {c : Params} {d : Drive} {r r₀ r' : Regs c}
    (h : CaptureCommonEffect d r₀ r') (hsame : SameSampler r r₀) (hrg : r₀.rg = r.rg) :
    CaptureCommonEffect d r r' := by
  obtain ⟨h1, h2, h3, h4, h5, h6⟩ := hsame
  unfold CaptureCommonEffect at h
  rwa [h1, h2, h4, h5, h6, hrg] at h

/-- Settles O29: whatever an edge's operation writes before the common part, the common part does not
read. -/
theorem everyEdgeDoesItsCommonPart : Obligations.EveryEdgeDoesItsCommonPart := by
  intro s r' hrst hstep
  obtain ⟨hvalid, -⟩ := step_next hstep
  obtain ⟨i, hi, rfl⟩ := step_after hstep
  refine ⟨fun hclock => ?_, fun hclock => ?_⟩
  · obtain ⟨r₀, he, hsampler, -, hrg⟩ :=
      effect_eq_captureCommon (isCapture_of_capture hi hrst hclock) s.drive s.regs
    rw [he]
    exact (captureCommon_effect (Params.ticks_of_valid hvalid) s.drive r₀).of_same hsampler hrg
  · obtain ⟨r₀, he, hwg, hdg⟩ :=
      effect_eq_drainCommon (isDrain_of_drain hi hrst hclock) s.drive s.regs
    unfold DrainCommonEffect
    rw [he, ← hwg, ← hdg]
    exact ⟨Crossing.sample_sampled _ _, Crossing.sample_sampled _ _⟩

end Sys2Proof.Machine
end

section
/-! R81, R74: the Gray sources under every step without `RST`. -/

namespace Sys2Proof.Machine

section
variable {w : Nat} {x x' : Crossing w} {v : BitVec w}

/-- A crossing left alone or written records a change of its source, and nothing else (R81). -/
theorem changed_of_write (h : x' = x ∨ x' = x.write v) : Changed x x' x'.src := by
  obtain rfl | rfl := h
  · exact ⟨rfl, fun hne => absurd rfl hne, fun _ => ⟨rfl, rfl⟩, rfl, rfl⟩
  · rw [Crossing.write_src]
    exact Crossing.write_changed x v

/-- A crossing left alone, or written with a value one bit apart, keeps its source or changes one bit
of it. -/
theorem src_oneBitApart_of_write (h : x' = x ∨ x' = x.write v)
    (hv : v = x.src ∨ OneBitApart v x.src) : x'.src = x.src ∨ OneBitApart x'.src x.src := by
  obtain rfl | rfl := h
  · exact .inl rfl
  · rwa [Crossing.write_src]

end

/-- Settles O30: each domain's operations write its own sources through `Crossing.write` or not at all,
and the common part leaves every source. -/
theorem graySourcesTrackTheirChanges : Obligations.GraySourcesTrackTheirChanges := by
  intro s r' hrst hstep
  obtain ⟨i, hi, rfl⟩ := step_after hstep
  refine ⟨fun hclock => ?_, fun hclock => ?_⟩
  · have hcapture := isCapture_of_capture hi hrst hclock
    exact ⟨changed_of_write (effect_wg_of_isCapture hcapture _ _),
      changed_of_write (effect_dg_of_isCapture hcapture _ _)⟩
  · have hdrain := isDrain_of_drain hi hrst hclock
    exact ⟨changed_of_write (effect_rg_of_isDrain hdrain _ _),
      effect_producer_src_of_isDrain hdrain _ _⟩

/-- Below the maximum the Gray code of the count changes in one bit, at it in none (R26, R74). -/
theorem bin2gray_sat_succ {w : Nat} (x : BitVec w) :
    bin2gray (sat w (x.toNat + 1)) = bin2gray x ∨
      OneBitApart (bin2gray (sat w (x.toNat + 1))) (bin2gray x) := by
  obtain he | ⟨hlt, he⟩ := sat_succ_cases x <;> rw [he]
  · exact .inl rfl
  · exact .inr (bin2gray_inc x (width_pos_of_lt_max hlt))

/-- Settles O13: consecutive codes differ in one bit, and a source that is the code of its counter is
only ever written with the code of the next count. -/
theorem grayStepsAreOneBit : Obligations.GrayStepsAreOneBit := by
  refine ⟨fun _ p hw => bin2gray_inc p hw, fun _ x hx => bin2gray_inc x (width_pos_of_lt_max hx), ?_⟩
  · intro s r' ⟨hwg, hrg, hdg⟩ hrst hstep
    obtain ⟨hvalid, -⟩ := step_next hstep
    have hptr := Params.ptrW_pos hvalid
    obtain ⟨i, hi, rfl⟩ := step_after hstep
    cases hclock : s.drive.clock with
    | capture =>
      have hcapture := isCapture_of_capture hi hrst hclock
      refine ⟨src_oneBitApart_of_write (effect_wg_of_isCapture hcapture _ _) ?_,
        .inl (effect_rg_src_of_isCapture hcapture _ _),
        src_oneBitApart_of_write (effect_dg_of_isCapture hcapture _ _) ?_⟩
      · rw [hwg]
        exact .inr (bin2gray_inc _ hptr)
      · rw [hdg]
        exact bin2gray_sat_succ _
    | drain =>
      have hdrain := isDrain_of_drain hi hrst hclock
      obtain ⟨hwgsrc, hdgsrc⟩ := effect_producer_src_of_isDrain hdrain s.drive s.regs
      refine ⟨.inl hwgsrc, src_oneBitApart_of_write (effect_rg_of_isDrain hdrain _ _) ?_,
        .inl hdgsrc⟩
      rw [hrg]
      exact .inr (bin2gray_inc _ hptr)

end Sys2Proof.Machine
end

section
/-! R77: the number of frames held is the length of the queue of R44. -/

namespace Sys2Proof.Machine

theorem contents_length {c : Params} (r : Regs c) : (contents r).length = occupancy r := by
  rw [contents, List.length_map, List.length_range]

theorem occupancy_le {c : Params} (h : c.valid = true) (r : Regs c) : occupancy r ≤ c.ringN - 1 := by
  obtain ⟨-, hpow⟩ := Params.ring_of_valid h
  have hlt := occupancy_lt r
  omega

section
variable {s : State} {i : Instr}

theorem pushed_length (hi : decode s.selectVec = .ok i) :
    s.pushed.toList.length = if i = .capPush then 1 else 0 := by
  split
  · rename_i hpush
    subst hpush
    rw [State.pushed, if_pos (encode_of_decode hi)]
    rfl
  · rename_i hne
    rw [pushed_of_ne_capPush hi hne]
    rfl

theorem popped_length (hi : decode s.selectVec = .ok i) :
    s.popped.toList.length = if i = .drnPop then 1 else 0 := by
  split
  · rename_i hpop
    subst hpop
    have hv := encode_of_decode hi
    rw [State.popped, if_pos hv, outFrame, if_pos (outValid_of_selects_pop hv)]
    rfl
  · rename_i hne
    rw [popped_of_ne_drnPop hi hne]
    rfl

/-- Every operation but RESET adds the frame it pushes to the number held and takes the one it pops. -/
theorem RingOrdered.effect_occupancy (h : RingOrdered s.regs) (hi : decode s.selectVec = .ok i)
    (hreset : i ≠ .reset) :
    occupancy s.regs + (if i = .capPush then 1 else 0) =
      (if i = .drnPop then 1 else 0) + occupancy (Instr.effect i s.drive s.regs) := by
  have hlen := congrArg List.length (h.effect_queue hi hreset)
  rwa [List.length_append, List.length_append, contents_length, contents_length, pushed_length hi,
    popped_length hi] at hlen

end

/-- Settles O45: the counts of the queue of R44, one operation at a time. -/
theorem frameCountFollowsOperations : Obligations.FrameCountFollowsOperations := by
  intro s r' i ⟨hvalid, hinv⟩ hi hstep
  obtain ⟨j, hj, rfl⟩ := step_after hstep
  obtain rfl : i = j := Except.ok.inj (hi.symm.trans hj)
  have hbound := occupancy_le hvalid (Instr.effect i s.drive s.regs)
  have hcount := hinv.ringOrdered.effect_occupancy hi
  refine ⟨hbound, ?_, ?_, ?_, ?_⟩
  · rintro rfl
    have hpush := hcount nofun
    rw [if_pos rfl, if_neg nofun] at hpush
    omega
  · rintro rfl
    have hpop := hcount nofun
    rw [if_neg nofun, if_pos rfl] at hpop
    omega
  · rintro rfl
    exact ahead_self _
  · intro hpush hpop hreset
    have hsame := hcount hreset
    rw [if_neg hpush, if_neg hpop] at hsame
    omega

end Sys2Proof.Machine
end

section
/-! R84: while nothing is popped the producer's view of the read cursor stays exact, so `FULL` comes
exactly when the ring is full, and every acceptance is a push before that and a drop from then on. -/

namespace Sys2Proof.Machine

section
variable {c : Params} {r : Regs c}

/-- When the view of the read cursor is exact, so is the synchronizer stage before it. -/
theorem RingOrdered.next_view (h : RingOrdered r) (hview : readView r = r.rptr) :
    gray2bin r.rg.s1 = r.rptr := by
  obtain ⟨⟨-, h1s, -⟩, -⟩ := h.order
  rw [h.rg_src, gray2bin_bin2gray, hview, ahead_self, Nat.le_zero] at h1s
  exact eq_of_ahead_eq (h1s.trans (ahead_self r.rptr).symm)

/-- Nothing but a pop or a reset makes an exact view of the read cursor inexact. -/
theorem RingOrdered.view_effect (h : RingOrdered r) (hview : readView r = r.rptr) {i : Instr}
    (hpop : i ≠ .drnPop) (hreset : i ≠ .reset) (d : Drive) :
    readView (Instr.effect i d r) = (Instr.effect i d r).rptr := by
  by_cases hcapture : i.isCapture = true
  · obtain ⟨r₀, he, -, hrptr, hrg⟩ := effect_eq_captureCommon hcapture d r
    rw [he, readView, captureCommon_rg, captureCommon_rptr, Crossing.sample_s2, hrg, hrptr]
    exact h.next_view hview
  · cases i with
    | drnEmpty | drnHold => exact hview
    | capArm | capQuiet | capReject | capPush | capDrop => exact absurd rfl hcapture
    | drnPop => exact absurd rfl hpop
    | reset => exact absurd rfl hreset

/-- With an exact view of the read cursor, `FULL = 1` says that one more frame would be a full turn. -/
theorem occupancy_of_full (hview : readView r = r.rptr) (hf : full r = true) :
    occupancy r + 1 = 2 ^ c.ptrW := by
  have hmeet : inc r.wptr = r.rptr := by rw [← hview]; simpa [full] using hf
  have hturn : (occupancy r + 1) % 2 ^ c.ptrW = 0 := by
    rw [occupancy, ← ahead_inc_mod, hmeet, ahead_self]
  have hlt := occupancy_lt r
  by_contra hne
  rw [Nat.mod_eq_of_lt (by omega)] at hturn
  cases hturn

end

/-- A step's `CSEL` is formed from its registers (R56). -/
theorem csel_of_selects {s : State} {v : BitVec 4} (h : s.selectVec = .csel v) :
    csel s.regs = v := by
  unfold State.selectVec at h
  split at h
  · exact SelectVec.csel.inj h
  · cases h
  · cases h

/-- CAP_DROP is selected with `FULL = 1` only (R56). -/
theorem full_of_selects_drop {s : State} (h : s.selectVec = encode .capDrop) :
    full s.regs = true :=
  calc full s.regs = (csel s.regs).getLsbD 0 := (bits4_getLsbD_zero _ _ _ _).symm
    _ = true := by rw [csel_of_selects h]; rfl

/-- Only CAP_DROP and RESET write the drop count (R93, R118). -/
theorem effect_drop {c : Params} {i : Instr} (hdrop : i ≠ .capDrop) (hreset : i ≠ .reset)
    (d : Drive) (r : Regs c) : (Instr.effect i d r).drop = r.drop := by
  cases i with
  | capArm | capQuiet | capReject | drnEmpty | drnHold => rfl
  | capPush => exact (push_sameDrops _ (deadbandUpdate r)).1
  | drnPop => exact (pop_sameDrops r).1
  | capDrop => exact absurd rfl hdrop
  | reset => exact absurd rfl hreset

/-- The number of frames the ring can still take (R77). -/
def freeSlots {c : Params} (r : Regs c) : Nat := 2 ^ c.ptrW - 1 - occupancy r

/-- With an exact view of the read cursor, a step that neither pops nor resets accepts nothing, or uses
up a free slot, or finds none and counts a drop. -/
theorem RingOrdered.step_overflow {s u : State} {i : Instr} (h : RingOrdered s.regs)
    (hview : readView s.regs = s.regs.rptr) (hi : decode s.selectVec = .ok i)
    (hu : u = s.after (Instr.effect i s.drive s.regs)) (hpop : i ≠ .drnPop) (hreset : i ≠ .reset) :
    (i.accepts = false ∧ s.pushed.toList.length = 0 ∧ freeSlots u.regs = freeSlots s.regs ∧
        u.regs.drop.toNat = s.regs.drop.toNat) ∨
      (i.accepts = true ∧ s.pushed.toList.length = 1 ∧ freeSlots s.regs = freeSlots u.regs + 1 ∧
        u.regs.drop.toNat = s.regs.drop.toNat) ∨
      (i.accepts = true ∧ s.pushed.toList.length = 0 ∧ freeSlots s.regs = 0 ∧
        freeSlots u.regs = 0 ∧
        u.regs.drop.toNat = min (s.regs.drop.toNat + 1) (2 ^ s.cfg.dropW - 1)) := by
  subst hu
  have hcount := h.effect_occupancy hi hreset
  have hpushed := pushed_length hi
  have hlt := occupancy_lt (Instr.effect i s.drive s.regs)
  have hfree : freeSlots (s.after (Instr.effect i s.drive s.regs)).regs =
      2 ^ s.cfg.ptrW - 1 - occupancy (Instr.effect i s.drive s.regs) := rfl
  rw [if_neg hpop] at hcount
  rw [hfree, freeSlots]
  by_cases hpush : i = .capPush
  · rw [if_pos hpush] at hcount hpushed
    have hdrop : i ≠ .capDrop := fun he => by rw [he] at hpush; cases hpush
    exact .inr (.inl ⟨accepts_iff.mpr (.inl hpush), hpushed, by omega,
      congrArg BitVec.toNat (effect_drop hdrop hreset _ _)⟩)
  · rw [if_neg hpush] at hcount hpushed
    by_cases hdrop : i = .capDrop
    · subst hdrop
      have hfull := occupancy_of_full hview (full_of_selects_drop (encode_of_decode hi))
      exact .inr (.inr ⟨rfl, hpushed, by omega, by omega, (countDrop_spec _).1⟩)
    · have haccepts : i.accepts = false := by
        rw [Bool.eq_false_iff, ne_eq, accepts_iff, not_or]
        exact ⟨hpush, hdrop⟩
      exact .inl ⟨haccepts, hpushed, by omega,
        congrArg BitVec.toNat (effect_drop hdrop hreset _ _)⟩

/-- R84 from any number of frames held: the acceptances fill the free slots, and each one after that
raises the drop count, up to its maximum. -/
theorem RingOrdered.run_overflow {s t : State} {n : Nat} (h : RingOrdered s.regs)
    (hview : readView s.regs = s.regs.rptr) (hrun : s.run n = .next t)
    (hreset : Instr.reset ∉ s.operations n) (hpop : Instr.drnPop ∉ s.operations n) :
    (s.pushes n).length = min ((s.operations n).countP Instr.accepts) (freeSlots s.regs) ∧
      t.regs.drop.toNat =
        min (s.regs.drop.toNat + ((s.operations n).countP Instr.accepts - freeSlots s.regs))
          (2 ^ s.cfg.dropW - 1) := by
  induction n generalizing s with
  | zero =>
    injection hrun with hst
    subst hst
    have hmax := s.regs.drop.isLt
    refine ⟨(Nat.zero_min _).symm, ?_⟩
    rw [State.operations, List.countP_nil]
    omega
  | succ n ih =>
    obtain ⟨u, hstep, hrest⟩ := State.run_succ hrun
    obtain ⟨-, -, i, hi, hu⟩ := step_next hstep
    have hops := State.operations_succ hi hstep n
    rw [hops, List.mem_cons, not_or] at hreset hpop
    obtain ⟨hneReset, hlaterReset⟩ := hreset
    obtain ⟨hnePop, hlaterPop⟩ := hpop
    have hordered : RingOrdered u.regs := by
      rw [hu]
      exact ringOrdered_effect h i s.drive
    have hexact : readView u.regs = u.regs.rptr := by
      rw [hu]
      exact h.view_effect hview (Ne.symm hnePop) (Ne.symm hneReset) s.drive
    obtain ⟨hpushes, hdrops⟩ := ih hordered hexact hrest hlaterReset hlaterPop
    have hmax : 2 ^ u.cfg.dropW = 2 ^ s.cfg.dropW :=
      congrArg (fun c : Params => 2 ^ c.dropW) (step_cfg hstep)
    rw [hops, State.pushes_succ hstep, List.length_append, List.length_map, List.countP_cons,
      hpushes, hdrops, hmax]
    obtain ⟨ha, hp, hf, hd⟩ | ⟨ha, hp, hf, hd⟩ | ⟨ha, hp, hf, hf', hd⟩ :=
      h.step_overflow hview hi hu (Ne.symm hnePop) (Ne.symm hneReset)
    · rw [ha, hp, hf, hd, if_neg Bool.false_ne_true]
      omega
    · rw [ha, hp, hf, hd, if_pos rfl]
      omega
    · rw [ha, hp, hf, hf', hd, if_pos rfl]
      omega

/-- Settles O48: the ring starts empty, so its free slots are all but one. -/
theorem overflowIsConserved : Obligations.OverflowIsConserved := by
  intro s t n ⟨hvalid, hinv⟩ hview hempty hrun hreset hpop
  obtain ⟨-, hpow⟩ := Params.ring_of_valid hvalid
  have hrun := hinv.ringOrdered.run_overflow hview hrun hreset hpop
  rwa [freeSlots, hempty, hpow, Nat.sub_zero] at hrun

end Sys2Proof.Machine
end

section
/-! R97: `OUT_FRAME` is the head of the queue of R44, which only a pop or a reset takes away. -/

namespace Sys2Proof.Machine

section
variable {c : Params} {r : Regs c}

/-- `OUT_VALID = 1` says that the read cursor has not reached the view of the write cursor (R76, R96). -/
theorem outValid_iff : outValid r = true ↔ r.rptr ≠ writeView r := by simp [outValid, empty]

theorem empty_of_outValid (hv : outValid r = true) : empty r = false := by
  rwa [outValid, Bool.not_eq_true'] at hv

theorem outFrame_of_not_outValid (hv : outValid r = false) : outFrame r = none :=
  if_neg (Bool.eq_false_iff.mp hv)

theorem RingOrdered.occupancy_pos (h : RingOrdered r) (hv : outValid r = true) : 0 < occupancy r :=
  Nat.pos_of_ne_zero fun h0 => h.rptr_ne_wptr (empty_of_outValid hv)
    (eq_of_ahead_eq ((ahead_self r.rptr).trans h0.symm))

/-- The frame shown is the oldest held (R97). -/
theorem RingOrdered.outFrame_eq_head? (h : RingOrdered r) (hv : outValid r = true) :
    outFrame r = (contents r).head? := by
  rw [h.contents_pop hv, outFrame, if_pos hv]
  rfl

/-- The frame shown stands in a slot that has been written, so it is no free value (R43). -/
theorem outFrame_eq_read (hv : outValid r = true)
    (hwritten : (Memory.read r.slots r.rptr.toNat).isSome = true) :
    outFrame r = Memory.read r.slots r.rptr.toNat := by
  obtain ⟨f, hf⟩ := Option.isSome_iff_exists.mp hwritten
  rw [outFrame, if_pos hv, memRead_of_read hf, hf]

/-- The next view of the write cursor is no earlier than the present one, so the read cursor has not
reached it either (R83). -/
theorem RingOrdered.rptr_ne_next_writeView (h : RingOrdered r) (hv : outValid r = true) :
    r.rptr ≠ gray2bin r.wg.s1 := fun heq => by
  have hlt := h.rptr_before_writeView (empty_of_outValid hv)
  obtain ⟨-, -, h21, -⟩ := h.order
  rw [← heq] at h21
  exact absurd h21 (Nat.not_le.mpr hlt)

/-- A capture operation leaves both sides of `OUT_VALID` alone (R95). -/
theorem outValid_effect_of_isCapture {i : Instr} (h : i.isCapture = true) (d : Drive) :
    outValid (Instr.effect i d r) = outValid r := by
  obtain ⟨r₀, he, -, hrptr, -⟩ := effect_eq_captureCommon h d r
  have hrptr' : (Instr.effect i d r).rptr = r.rptr := by rw [he, captureCommon_rptr, hrptr]
  have hs2 : (Instr.effect i d r).wg.s2 = r.wg.s2 := by
    obtain hwg | hwg := effect_wg_of_isCapture h d r <;> rw [hwg]
    exact Crossing.write_s2 _ _
  rw [outValid, empty, writeView, hrptr', hs2]
  rfl

/-- Nothing but a pop or a reset takes `OUT_VALID = 1` back (R97). -/
theorem RingOrdered.outValid_effect (h : RingOrdered r) (hv : outValid r = true) {i : Instr}
    (hpop : i ≠ .drnPop) (hreset : i ≠ .reset) (d : Drive) :
    outValid (Instr.effect i d r) = true := by
  cases i with
  | capArm | capQuiet | capReject | capPush | capDrop =>
    rwa [outValid_effect_of_isCapture rfl]
  | drnEmpty | drnHold => exact outValid_iff.mpr (h.rptr_ne_next_writeView hv)
  | drnPop => exact absurd rfl hpop
  | reset => exact absurd rfl hreset

end

/-- A step without `RST` performs an operation of the clock that has its edge, not RESET (R55). -/
theorem ne_reset_of_released {s : State} {i : Instr} (hi : decode s.selectVec = .ok i)
    (hrst : s.drive.rst = .released) : i ≠ .reset := by
  rintro rfl
  cases hclock : s.drive.clock with
  | capture => cases isCapture_of_capture hi hrst hclock
  | drain => cases isDrain_of_drain hi hrst hclock

/-- A step that neither pops nor resets leaves the head of the queue: it adds behind it at most. -/
theorem RingOrdered.outFrame_effect {s : State} {i : Instr} (h : RingOrdered s.regs)
    (hv : outValid s.regs = true) (hi : decode s.selectVec = .ok i) (hpop : i ≠ .drnPop)
    (hreset : i ≠ .reset) : outFrame (Instr.effect i s.drive s.regs) = outFrame s.regs := by
  have hqueue := h.effect_queue hi hreset
  rw [popped_of_ne_drnPop hi hpop, Option.toList_none, List.nil_append] at hqueue
  have hheld : contents s.regs ≠ [] :=
    List.ne_nil_of_length_pos (by rw [contents_length]; exact h.occupancy_pos hv)
  rw [(ringOrdered_effect h i s.drive).outFrame_eq_head? (h.outValid_effect hv hpop hreset s.drive),
    ← hqueue, List.head?_append_of_ne_nil _ hheld, h.outFrame_eq_head? hv]

/-- Settles O47: the frame shown is the head of the queue, and stays it until it is popped. -/
theorem outFrameIsHeld : Obligations.OutFrameIsHeld := by
  refine ⟨fun s ⟨_, hinv⟩ hv => ?_, fun s r' ⟨_, hinv⟩ hstep hrst hsel hv => ?_,
    fun _ _ => outFrame_of_not_outValid⟩
  · have hring := hinv.ringOrdered
    obtain ⟨-, -, -, ⟨-, -, hwritten⟩, -⟩ := hinv
    have hoccupied := hwritten 0 (hring.occupancy_pos hv)
    rw [liveIndex_zero] at hoccupied
    exact ⟨outFrame_eq_read hv hoccupied, hring.outFrame_eq_head? hv⟩
  · obtain ⟨i, hi, rfl⟩ := step_after hstep
    have hreset := ne_reset_of_released hi hrst
    have hpop : i ≠ .drnPop := fun he => hsel (by rw [encode_of_decode hi, he]; rfl)
    exact ⟨hinv.ringOrdered.outValid_effect hv hpop hreset s.drive,
      hinv.ringOrdered.outFrame_effect hv hi hpop hreset⟩

end Sys2Proof.Machine
end

section
/-! R44 for one step, and R75 and R76: the status signals err on the safe side. -/

namespace Sys2Proof.Machine

/-- With `RST` at both domains the operation is RESET (R55). -/
theorem eq_reset_of_both {s : State} {i : Instr} (hi : decode s.selectVec = .ok i)
    (hrst : s.drive.rst = .both) : i = .reset := by
  rw [selectVec_of_reset hrst] at hi
  exact (Except.ok.inj hi).symm

theorem contents_of_occupancy_zero {c : Params} {r : Regs c} (h : occupancy r = 0) :
    contents r = [] := List.length_eq_zero_iff.mp ((contents_length r).trans h)

/-- Settles O41: RESET leaves equal cursors, and every other operation acts on the queue as it was
selected to. -/
theorem ringIsAQueue : Obligations.RingIsAQueue := by
  intro s r' ⟨_, hinv⟩ hstep
  obtain ⟨i, hi, rfl⟩ := step_after hstep
  refine ⟨fun hrst => ?_, fun hrst => ?_⟩
  · rw [eq_reset_of_both hi hrst]
    exact contents_of_occupancy_zero (ahead_self _)
  · exact hinv.ringOrdered.effect_queue hi (ne_reset_of_released hi hrst)

/-- Settles O46: with `FULL = 0` there is room in the ring, and with `EMPTY = 0` a frame. -/
theorem fullAndValidAreConservative : Obligations.FullAndValidAreConservative := by
  intro s ⟨_, hinv⟩
  refine ⟨fun hmeet => ?_, fun hsame => ?_⟩
  · by_contra hf
    exact hinv.ringOrdered.inc_wptr_ne_rptr (Bool.eq_false_iff.mpr hf) hmeet
  · by_contra hv
    exact hinv.ringOrdered.rptr_ne_wptr (empty_of_outValid (eq_true_of_ne_false hv)) hsame

end Sys2Proof.Machine
end

section
/-! What a push and a pop do to each part of the registers, in the case that writes and in the case that
does not (R78, R79). -/

namespace Sys2Proof.Machine

section
variable {c : Params}

/-- With `FULL = 1` a push leaves the registers (R78). -/
theorem push_of_full {r : Regs c} (hf : full r = true) (f : BitVec c.frameW) :
    (push f r).2 = r := by
  obtain ⟨-, he⟩ | ⟨hfull, -⟩ := push_cases f r
  · rw [he]
  · rw [hf] at hfull; cases hfull

/-- With `FULL = 0` a push writes the write cursor's crossing with the next cursor's code (R78). -/
theorem push_wg_of_not_full {r : Regs c} (hf : full r = false) (f : BitVec c.frameW) :
    (push f r).2.wg = r.wg.write (bin2gray (inc r.wptr)) := by
  obtain ⟨hfull, -⟩ | ⟨-, he⟩ := push_cases f r
  · rw [hf] at hfull; cases hfull
  · rw [he]

/-- With `EMPTY = 1` a pop leaves the registers (R79). -/
theorem pop_of_empty {r : Regs c} (he : empty r = true) : (pop r).2 = r := by
  obtain ⟨-, hp⟩ | ⟨hempty, -⟩ := pop_cases r
  · rw [hp]
  · rw [he] at hempty; cases hempty

/-- With `EMPTY = 0` a pop writes the read cursor's crossing with the next cursor's code (R79). -/
theorem pop_rg_of_not_empty {r : Regs c} (he : empty r = false) :
    (pop r).2.rg = r.rg.write (bin2gray (inc r.rptr)) := by
  obtain ⟨hempty, -⟩ | ⟨-, hp⟩ := pop_cases r
  · rw [he] at hempty; cases hempty
  · rw [hp]

/-- A pop leaves the producer's registers and the slots (R79). -/
theorem pop_wptr_slots (r : Regs c) :
    (pop r).2.wptr = r.wptr ∧ (pop r).2.slots = r.slots :=
  ⟨(congrArg Regs.wptr (pop_frame r) :), (congrArg Regs.slots (pop_frame r) :)⟩

theorem pop_sameSampler (r : Regs c) : SameSampler r (pop r).2 :=
  ⟨(congrArg Regs.inS1 (pop_frame r) :), (congrArg Regs.inS2 (pop_frame r) :),
    (congrArg Regs.inPrev (pop_frame r) :), (congrArg Regs.armCnt (pop_frame r) :),
    (congrArg Regs.presc (pop_frame r) :), (congrArg Regs.ts (pop_frame r) :)⟩

theorem pop_sameDeadband (r : Regs c) : SameDeadband r (pop r).2 :=
  ⟨(congrArg Regs.lastT (pop_frame r) :), (congrArg Regs.lastValid (pop_frame r) :)⟩

end

end Sys2Proof.Machine
end

section
/-! The receiving side of each crossing: its own clock samples it, the other clock leaves both of its
stages (R82, R95, R103). -/

namespace Sys2Proof.Machine

/-- An operation belongs to one of the two clocks, or is RESET (R55 to R57). -/
theorem isCapture_or_isDrain_or_reset (i : Instr) :
    i.isCapture = true ∨ i.isDrain = true ∨ i = .reset := by
  cases i with
  | capArm | capQuiet | capReject | capPush | capDrop => exact .inl rfl
  | drnEmpty | drnHold | drnPop => exact .inr (.inl rfl)
  | reset => exact .inr (.inr rfl)

theorem isDrain_of_not_isCapture {i : Instr} (h : i.isCapture = false) (hreset : i ≠ .reset) :
    i.isDrain = true := by
  obtain hcapture | hdrain | he := isCapture_or_isDrain_or_reset i
  · rw [h] at hcapture; cases hcapture
  · exact hdrain
  · exact absurd he hreset

theorem isCapture_of_not_isDrain {i : Instr} (h : i.isDrain = false) (hreset : i ≠ .reset) :
    i.isCapture = true := by
  obtain hcapture | hdrain | he := isCapture_or_isDrain_or_reset i
  · exact hcapture
  · rw [h] at hdrain; cases hdrain
  · exact absurd he hreset

@[simp] theorem Crossing.write_s1 {w : Nat} (x : Crossing w) (v : BitVec w) :
    (x.write v).s1 = x.s1 := by
  obtain ⟨-, -, -, hs1, -⟩ := Crossing.write_changed x v
  exact hs1

/-- A crossing left alone or written keeps both stages (R81). -/
theorem stages_of_write {w : Nat} {x x' : Crossing w} {v : BitVec w} (h : x' = x ∨ x' = x.write v) :
    x'.s1 = x.s1 ∧ x'.s2 = x.s2 := by
  obtain rfl | rfl := h
  · exact ⟨rfl, rfl⟩
  · exact ⟨Crossing.write_s1 _ _, Crossing.write_s2 _ _⟩

section
variable {c : Params} {i : Instr}

theorem effect_rg_of_isCapture (h : i.isCapture = true) (d : Drive) (r : Regs c) :
    (Instr.effect i d r).rg = r.rg.sample d.rgOld := by
  obtain ⟨r₀, he, -, -, hrg⟩ := effect_eq_captureCommon h d r
  rw [he, captureCommon_rg, hrg]

theorem effect_rptr_of_isCapture (h : i.isCapture = true) (d : Drive) (r : Regs c) :
    (Instr.effect i d r).rptr = r.rptr := by
  obtain ⟨r₀, he, -, hrptr, -⟩ := effect_eq_captureCommon h d r
  rw [he, captureCommon_rptr, hrptr]

theorem effect_wg_of_isDrain (h : i.isDrain = true) (d : Drive) (r : Regs c) :
    (Instr.effect i d r).wg = r.wg.sample d.wgOld := by
  obtain ⟨r₀, he, hwg, -⟩ := effect_eq_drainCommon h d r
  rw [he, drainCommon_wg, hwg]

theorem effect_dg_of_isDrain (h : i.isDrain = true) (d : Drive) (r : Regs c) :
    (Instr.effect i d r).dg = r.dg.sample d.dgOld := by
  obtain ⟨r₀, he, -, hdg⟩ := effect_eq_drainCommon h d r
  rw [he, drainCommon_dg, hdg]

theorem effect_wg_stages_of_isCapture (h : i.isCapture = true) (d : Drive) (r : Regs c) :
    (Instr.effect i d r).wg.s1 = r.wg.s1 ∧ (Instr.effect i d r).wg.s2 = r.wg.s2 :=
  stages_of_write (effect_wg_of_isCapture h d r)

theorem effect_dg_stages_of_isCapture (h : i.isCapture = true) (d : Drive) (r : Regs c) :
    (Instr.effect i d r).dg.s1 = r.dg.s1 ∧ (Instr.effect i d r).dg.s2 = r.dg.s2 :=
  stages_of_write (effect_dg_of_isCapture h d r)

theorem effect_rg_stages_of_isDrain (h : i.isDrain = true) (d : Drive) (r : Regs c) :
    (Instr.effect i d r).rg.s1 = r.rg.s1 ∧ (Instr.effect i d r).rg.s2 = r.rg.s2 :=
  stages_of_write (effect_rg_of_isDrain h d r)

/-! ### The views (R75, R76, R98) -/

theorem readView_effect_of_isCapture (h : i.isCapture = true) (d : Drive) (r : Regs c) :
    readView (Instr.effect i d r) = gray2bin r.rg.s1 := by
  rw [readView, effect_rg_of_isCapture h, Crossing.sample_s2]

theorem readView_effect_of_isDrain (h : i.isDrain = true) (d : Drive) (r : Regs c) :
    readView (Instr.effect i d r) = readView r := by
  rw [readView, (effect_rg_stages_of_isDrain h d r).2, readView]

theorem writeView_effect_of_isDrain (h : i.isDrain = true) (d : Drive) (r : Regs c) :
    writeView (Instr.effect i d r) = gray2bin r.wg.s1 := by
  rw [writeView, effect_wg_of_isDrain h, Crossing.sample_s2]

theorem writeView_effect_of_isCapture (h : i.isCapture = true) (d : Drive) (r : Regs c) :
    writeView (Instr.effect i d r) = writeView r := by
  rw [writeView, (effect_wg_stages_of_isCapture h d r).2, writeView]

theorem outDropped_effect_of_isDrain (h : i.isDrain = true) (d : Drive) (r : Regs c) :
    outDropped (Instr.effect i d r) = gray2bin r.dg.s1 := by
  rw [outDropped, effect_dg_of_isDrain h, Crossing.sample_s2]

theorem outDropped_effect_of_isCapture (h : i.isCapture = true) (d : Drive) (r : Regs c) :
    outDropped (Instr.effect i d r) = outDropped r := by
  rw [outDropped, (effect_dg_stages_of_isCapture h d r).2, outDropped]

end

end Sys2Proof.Machine
end

section
/-! The parts of the invariant that the ring's order does not speak of: each operation keeps the Gray
copies, the order of the drop count's crossing and the slots. -/

namespace Sys2Proof.Machine

section
variable {c : Params} {r : Regs c}

/-! ### The Gray copies (R24, R26, R27) -/

theorem grayCopies_push (h : GrayCopies r) (f : BitVec c.frameW) : GrayCopies (push f r).2 := by
  obtain ⟨-, he⟩ | ⟨-, he⟩ := push_cases f r <;> rw [he]
  · exact h
  · exact ⟨Crossing.write_src _ _, h.2⟩

theorem grayCopies_pop (h : GrayCopies r) : GrayCopies (pop r).2 := by
  obtain ⟨hwg, -, hdg⟩ := id h
  obtain ⟨-, he⟩ | ⟨-, he⟩ := pop_cases r <;> rw [he]
  · exact h
  · exact ⟨hwg, Crossing.write_src _ _, hdg⟩

theorem grayCopies_countDrop (h : GrayCopies r) : GrayCopies (countDrop r) := by
  obtain ⟨hwg, hrg, -⟩ := h
  exact ⟨hwg, hrg, Crossing.write_src _ _⟩

/-- Every operation writes a counter and its Gray copy together, and a sample writes no source. -/
theorem grayCopies_effect (h : GrayCopies r) (i : Instr) (d : Drive) :
    GrayCopies (Instr.effect i d r) := by
  cases i with
  | capArm | capQuiet | capReject | drnEmpty | drnHold => exact h
  | capPush => exact grayCopies_push (r := deadbandUpdate r) h _
  | capDrop => exact grayCopies_countDrop (r := deadbandUpdate r) h
  | drnPop => exact grayCopies_pop h
  | reset => exact ⟨(bin2gray_zero _).symm, (bin2gray_zero _).symm, (bin2gray_zero _).symm⟩

/-! ### The drop count (R26, R83) -/

/-- The saturating count never falls (R26). -/
theorem toNat_le_sat_succ {w : Nat} (x : BitVec w) : x.toNat ≤ (sat w (x.toNat + 1)).toNat := by
  have hx := x.isLt
  rw [sat_toNat]
  omega

/-- The stages of the drop count's crossing never show a count that has not been reached. -/
theorem dropOrder_effect (hgray : GrayCopies r) (h : r.dg.inOrder BitVec.toNat) (i : Instr)
    (d : Drive) : (Instr.effect i d r).dg.inOrder BitVec.toNat := by
  obtain ⟨-, -, hdg⟩ := hgray
  obtain hcapture | hdrain | rfl := isCapture_or_isDrain_or_reset i
  · obtain he | he := effect_dg_of_isCapture hcapture d r <;> rw [he]
    · exact h
    · refine Crossing.inOrder_write h ?_
      rw [hdg, gray2bin_bin2gray, gray2bin_bin2gray]
      exact toNat_le_sat_succ r.drop
  · rw [effect_dg_of_isDrain hdrain]
    exact Crossing.inOrder_sample h _
  · exact Crossing.inOrder_reset _

/-! ### The slots (R33, R34, R43) -/

/-- The slot array is canonical and lists only slots that exist. -/
abbrev SlotsCanonical (r : Regs c) : Prop :=
  Memory.wf r.slots = true ∧ (r.slots.all fun e => decide (e.1 < c.ringN)) = true

/-- Every frame held stands in a slot that has been written. -/
abbrev HeldWritten (r : Regs c) : Prop :=
  ∀ k, k < occupancy r → (Memory.read r.slots (liveIndex r k).toNat).isSome = true

theorem slotsCanonical_push (hvalid : c.valid = true) (h : SlotsCanonical r) (f : BitVec c.frameW) :
    SlotsCanonical (push f r).2 := by
  obtain ⟨hwf, hrange⟩ := id h
  obtain ⟨-, hpow⟩ := Params.ring_of_valid hvalid
  obtain ⟨-, he⟩ | ⟨-, he⟩ := push_cases f r <;> rw [he]
  · exact h
  · have hptr : decide (r.wptr.toNat < c.ringN) = true := decide_eq_true (hpow ▸ r.wptr.isLt)
    exact ⟨Memory.wf_write _ _ _ hwf,
      Memory.all_write (fun j => decide (j < c.ringN)) _ _ _ hrange hptr⟩

theorem slotsCanonical_effect (hvalid : c.valid = true) (h : SlotsCanonical r) (i : Instr)
    (d : Drive) : SlotsCanonical (Instr.effect i d r) := by
  by_cases hpush : i = .capPush
  · subst hpush
    exact slotsCanonical_push (r := deadbandUpdate r) hvalid h _
  · unfold SlotsCanonical
    rwa [effect_slots hpush]

/-- A push holds one frame more, and has written that frame's slot. -/
theorem RingOrdered.heldWritten_push (hring : RingOrdered r) (h : HeldWritten r)
    (f : BitVec c.frameW) : HeldWritten (push f r).2 := by
  cases hf : full r with
  | true =>
    rwa [push_of_full hf]
  | false =>
    obtain ⟨hrptr, -, hread⟩ := push_ring hf f
    have hocc := congrArg List.length (hring.contents_push hf f)
    rw [contents_length, List.length_append, contents_length, List.length_singleton] at hocc
    intro k hk
    have hidx : liveIndex (push f r).2 k = liveIndex r k := by rw [liveIndex, hrptr, liveIndex]
    rw [hidx]
    obtain hold | rfl : k < occupancy r ∨ k = occupancy r := by omega
    · rw [push_read_liveIndex hf f hold]
      exact h k hold
    · rw [liveIndex_occupancy, hread, if_pos rfl]
      rfl

/-- A pop renumbers the places in the queue by one. -/
theorem liveIndex_pop (he : empty r = false) (k : Nat) :
    liveIndex (pop r).2 k = liveIndex r (k + 1) := by
  obtain ⟨hrptr, -, -⟩ := pop_ring he
  rw [liveIndex, liveIndex, hrptr, inc, BitVec.ofNat_add, BitVec.add_assoc, BitVec.add_comm 1#_]

/-- What a pop leaves held was held before it, one place further on. -/
theorem RingOrdered.heldWritten_pop (hring : RingOrdered r) (h : HeldWritten r) :
    HeldWritten (pop r).2 := by
  cases he : empty r with
  | true =>
    rwa [pop_of_empty he]
  | false =>
    have hv : outValid r = true := by rw [outValid, he]; rfl
    obtain ⟨-, -, hslots⟩ := pop_ring he
    have hocc := congrArg List.length (hring.contents_pop hv)
    rw [List.length_append, contents_length, contents_length, outFrame, if_pos hv,
      Option.toList_some, List.length_singleton] at hocc
    intro k hk
    rw [hslots, liveIndex_pop he]
    exact h (k + 1) (by omega)

theorem RingOrdered.heldWritten_effect (hring : RingOrdered r) (h : HeldWritten r) (i : Instr)
    (d : Drive) : HeldWritten (Instr.effect i d r) := by
  cases i with
  | capArm | capQuiet | capReject | capDrop | drnEmpty | drnHold => exact h
  | capPush => exact (ringOrdered_deadbandUpdate hring).heldWritten_push h _
  | drnPop => exact hring.heldWritten_pop h
  | reset =>
    intro k hk
    rw [show occupancy (Instr.effect .reset d r) = 0 from ahead_self _] at hk
    exact absurd hk (Nat.not_lt_zero k)

end

/-- Settles O37: the Gray copies need no other part of the invariant. -/
theorem stepKeepsGrayCopies : Obligations.StepKeepsGrayCopies := by
  intro s t h hstep
  obtain ⟨-, -, i, -, rfl⟩ := step_next hstep
  exact grayCopies_effect h i s.drive

/-- Settles O38: only CAP_PUSH writes a slot, at a pointer's value, which an admissible ring has. -/
theorem stepKeepsSlotArrayCanonical : Obligations.StepKeepsSlotArrayCanonical := by
  intro s t hwf hrange hstep
  obtain ⟨hvalid, -, i, -, rfl⟩ := step_next hstep
  exact slotsCanonical_effect hvalid ⟨hwf, hrange⟩ i s.drive

end Sys2Proof.Machine
end

section
/-! The two parts of the invariant about time: nothing before the first acceptance, and none before
capture start. They rest on what the select vector says of `ARMED` and on an empty ring's `OUT_VALID`. -/

namespace Sys2Proof.Machine

/-- An edge event is accepted only by an armed block (R86, R56). -/
theorem armed_of_accepts {s : State} {i : Instr} (hi : decode s.selectVec = .ok i)
    (h : i.accepts = true) : armed s.regs = true := by
  have hv := encode_of_decode hi
  obtain ⟨u, hu⟩ : ∃ u, s.selectVec = .csel u := by
    obtain rfl | rfl := accepts_iff.mp h
    · exact ⟨_, hv⟩
    · exact ⟨_, hv⟩
  rw [hu, ← csel_of_selects hu] at hi
  obtain rfl := Except.ok.inj hi
  rw [decodeCsel_csel_accepts, edge] at h
  obtain ⟨hedge, -⟩ := Bool.and_eq_true_iff.mp h
  exact (Bool.and_eq_true_iff.mp hedge).1

section
variable {c : Params} {r : Regs c}

/-! ### Before the first acceptance (R23) -/

@[simp] theorem Crossing.sample_reset (w : Nat) (old : Bool) :
    (Crossing.reset w).sample old = Crossing.reset w := by
  unfold Crossing.sample
  rfl

/-- A ring with all pointers at their reset values shows no frame. -/
theorem empty_of_reset (hrptr : r.rptr = 0) (hwg : r.wg = Crossing.reset _) : empty r = true := by
  rw [empty, writeView, hrptr, hwg, Crossing.reset_s2, gray2bin_zero]
  exact beq_self_eq_true _

theorem fresh_captureCommon (h : Fresh r) (d : Drive) : Fresh (captureCommon d r) := fun hv => by
  obtain ⟨hlast, hwptr, hwg, hdrop, hdg, hrptr, hrg⟩ := h hv
  refine ⟨hlast, hwptr, hwg, hdrop, hdg, hrptr, ?_⟩
  rw [captureCommon_rg, hrg, Crossing.sample_reset]

theorem fresh_drainCommon (h : Fresh r) (d : Drive) : Fresh (drainCommon d r) := fun hv => by
  obtain ⟨hlast, hwptr, hwg, hdrop, hdg, hrptr, hrg⟩ := h hv
  refine ⟨hlast, hwptr, ?_, hdrop, ?_, hrptr, hrg⟩
  · rw [drainCommon_wg, hwg, Crossing.sample_reset]
  · rw [drainCommon_dg, hdg, Crossing.sample_reset]

/-- Before the first acceptance there is no frame to pop. -/
theorem fresh_pop (h : Fresh r) : Fresh (pop r).2 := fun hv => by
  have hvalid : r.lastValid = false := (congrArg Regs.lastValid (pop_frame r)).symm.trans hv
  obtain ⟨-, -, hwg, -, -, hrptr, -⟩ := h hvalid
  rw [pop_of_empty (empty_of_reset hrptr hwg)]
  exact h hvalid

/-- The acceptances end the freshness, RESET restores it, and no other operation writes what it speaks
of. -/
theorem fresh_effect (h : Fresh r) (i : Instr) (d : Drive) : Fresh (Instr.effect i d r) := by
  by_cases ha : i.accepts = true
  · obtain ⟨-, hv⟩ := effect_deadband_of_accepts ha d r
    intro hno
    rw [hv] at hno
    cases hno
  · cases i with
    | capArm | capQuiet | capReject => exact fresh_captureCommon h d
    | drnEmpty | drnHold => exact fresh_drainCommon h d
    | drnPop => exact fresh_drainCommon (fresh_pop h) d
    | reset => exact fun _ => ⟨rfl, rfl, rfl, rfl, rfl, rfl, rfl⟩
    | capPush | capDrop => exact absurd rfl ha

/-! ### Before capture start (R21, R22, R88) -/

theorem armed_iff : armed r = true ↔ r.armCnt.toNat = 3 := by
  rw [armed, beq_iff_eq]
  exact ⟨fun h => by rw [h]; rfl, fun h => BitVec.eq_of_toNat_eq h⟩

/-- An armed block stays armed (R87). -/
theorem armed_captureCommon (h : armed r = true) (d : Drive) :
    armed (captureCommon d r) = true := by
  rw [armed_iff] at h ⊢
  rw [captureCommon_armCnt, nextArmCnt_toNat, h]
  rfl

/-- The prescaler's reset value is in its range (R9, R21). -/
theorem presc_zero_lt (h : 1 ≤ c.ticksPerUs) : (0 : BitVec c.prescW).toNat < c.ticksPerUs :=
  (BitVec.toNat_zero (w := c.prescW)).trans_lt h

/-- A capture step keeps the prescaler in range, and starts the time only of an armed block. -/
theorem timeOk_captureCommon (h : TimeOk r) (d : Drive) : TimeOk (captureCommon d r) := by
  obtain ⟨hrange, hbefore⟩ := h
  have hstays : armed (captureCommon d r) = false → armed r = false := fun hno => by
    by_contra harmed
    rw [armed_captureCommon (by simpa using harmed)] at hno
    cases hno
  unfold TimeOk
  rw [captureCommon_presc, captureCommon_ts, captureCommon_lastValid]
  obtain ⟨hno, hp, ht⟩ | ⟨harm, hlast, hp, ht⟩ | ⟨harm, hlast, hp, ht⟩ := time_cases r <;> rw [hp, ht]
  · exact ⟨hrange, fun _ => hbefore hno⟩
  · refine ⟨presc_zero_lt (by omega), fun hno => ?_⟩
    rw [hstays hno] at harm
    cases harm
  · have hle : (r.presc + 1).toNat ≤ r.presc.toNat + 1 := by
      calc (r.presc + 1).toNat = (r.presc.toNat + 1) % 2 ^ c.prescW := inc_toNat r.presc
        _ ≤ r.presc.toNat + 1 := Nat.mod_le _ _
    refine ⟨by omega, fun hno => ?_⟩
    rw [hstays hno] at harm
    cases harm

/-- The deadband update is made only by an armed block, of which `TimeOk` asks the range only. -/
theorem timeOk_of_armed (harmed : armed r = true) (hrange : r.presc.toNat < c.ticksPerUs) :
    TimeOk r := ⟨hrange, fun hno => by rw [harmed] at hno; cases hno⟩

theorem TimeOk.of_same {r₀ : Regs c} (h : TimeOk r) (hsampler : SameSampler r r₀)
    (hdeadband : SameDeadband r r₀) : TimeOk r₀ := by
  obtain ⟨-, -, -, harm, hpresc, hts⟩ := hsampler
  obtain ⟨-, hv⟩ := hdeadband
  unfold TimeOk armed
  rwa [harm, hpresc, hts, hv]

theorem timeOk_effect (hticks : 1 ≤ c.ticksPerUs) (h : TimeOk r) (i : Instr)
    (harmed : i.accepts = true → armed r = true) (d : Drive) : TimeOk (Instr.effect i d r) := by
  cases i with
  | capArm | capQuiet | capReject => exact timeOk_captureCommon h d
  | capPush =>
    have hdeadband := timeOk_of_armed (r := deadbandUpdate r) (harmed rfl) h.1
    exact timeOk_captureCommon (hdeadband.of_same (push_sameSampler _ _) (push_sameDeadband _ _)) d
  | capDrop =>
    have hcounted := timeOk_of_armed (r := countDrop (deadbandUpdate r)) (harmed rfl) h.1
    exact timeOk_captureCommon hcounted d
  | drnEmpty | drnHold => exact h
  | drnPop => exact h.of_same (pop_sameSampler r) (pop_sameDeadband r)
  | reset => exact ⟨presc_zero_lt hticks, fun _ => ⟨rfl, rfl, rfl⟩⟩

end

/-- Settles O36: each part of the invariant is kept by the operation the step selects. -/
theorem stepKeepsInvariant : Obligations.StepKeepsInvariant := by
  intro s t ⟨hvalid, hinv⟩ hstep
  obtain ⟨-, -, i, hi, rfl⟩ := step_next hstep
  have hring := hinv.ringOrdered
  obtain ⟨hgray, -, hdrop, ⟨hwf, hrange, hheld⟩, hfresh, htime⟩ := hinv
  obtain ⟨hwf', hrange'⟩ := slotsCanonical_effect hvalid ⟨hwf, hrange⟩ i s.drive
  exact ⟨hvalid, grayCopies_effect hgray i _, (ringOrdered_effect hring i _).order,
    dropOrder_effect hgray hdrop i _, ⟨hwf', hrange', hring.heldWritten_effect hheld i _⟩,
    fresh_effect hfresh i _,
    timeOk_effect (Params.ticks_of_valid hvalid) htime i (armed_of_accepts hi) _⟩

end Sys2Proof.Machine
end

section
/-! A run as the chain of the operations it performs, for inductions over runs, and the invariant along
it. -/

namespace Sys2Proof.Machine

/-- From `s` the operations `ops`, each the one its step selects, lead to `t`. -/
inductive Steps : State → List Instr → State → Prop
  | nil (s : State) : Steps s [] s
  | cons {s t : State} {i : Instr} {ops : List Instr} (hi : decode s.selectVec = .ok i)
      (hstep : step s = .next (s.after (Instr.effect i s.drive s.regs)))
      (hrest : Steps (s.after (Instr.effect i s.drive s.regs)) ops t) : Steps s (i :: ops) t

/-- A completed run is the chain of its operations. -/
theorem State.run_steps {s t : State} {n : Nat} (h : s.run n = .next t) :
    Steps s (s.operations n) t := by
  induction n generalizing s with
  | zero =>
    injection h with hst
    subst hst
    exact .nil s
  | succ n ih =>
    obtain ⟨u, hstep, hrest⟩ := State.run_succ h
    obtain ⟨-, -, i, hi, rfl⟩ := step_next hstep
    rw [State.operations_succ hi hstep]
    exact .cons hi hstep (ih hrest)

theorem Steps.cfg {s t : State} {ops : List Instr} (h : Steps s ops t) : t.cfg = s.cfg := by
  induction h with
  | nil => rfl
  | cons _ _ _ ih => exact ih

theorem Steps.inv {s t : State} {ops : List Instr} (h : Steps s ops t) (hinv : s.Inv) : t.Inv := by
  induction h with
  | nil => exact hinv
  | cons _ hstep _ ih => exact ih (stepKeepsInvariant _ _ hinv hstep)

/-! ### From a reset on -/

/-- R118's register values satisfy the invariant, with any draws and any canonical slots. -/
theorem inv_resetWith {c : Params} (hvalid : c.valid = true) (a b e : Lines) {m : Memory c.frameW}
    (hwf : Memory.wf m = true) (hrange : (m.all fun x => decide (x.1 < c.ringN)) = true) :
    (Regs.resetWith c a b e m).Inv := by
  have hgray : ∀ w, 0#w = bin2gray 0#w := fun w => (bin2gray_zero w).symm
  have hview : writeView (Regs.resetWith c a b e m) = 0 := gray2bin_zero _
  have hnone : ∀ k, ¬k < occupancy (Regs.resetWith c a b e m) := fun k hk => by
    rw [occupancy, Regs.resetWith_rptr, Regs.resetWith_wptr, ahead_self] at hk
    exact Nat.not_lt_zero k hk
  exact ⟨⟨hgray _, hgray _, hgray _⟩,
    ⟨Crossing.inOrder_reset _, by rw [Regs.resetWith_rptr, hview], Crossing.inOrder_reset _⟩,
    Crossing.inOrder_reset _, ⟨hwf, hrange, fun k hk => absurd hk (hnone k)⟩,
    fun _ => ⟨rfl, rfl, rfl, rfl, rfl, rfl, rfl⟩,
    presc_zero_lt (Params.ticks_of_valid hvalid), fun _ => ⟨rfl, rfl, rfl⟩⟩

theorem State.JustReset.inv {s : State} (h : s.JustReset) (hvalid : s.cfg.valid = true) : s.Inv := by
  obtain ⟨a, b, e, m, hwf, hrange, hregs⟩ := h
  refine ⟨hvalid, ?_⟩
  rw [hregs]
  exact inv_resetWith hvalid a b e hwf hrange

/-- Settles O35: all three clauses are about the registers of R118. -/
theorem resetEstablishesInvariant : Obligations.ResetEstablishesInvariant := by
  have hof : ∀ c : Params, c.valid = true → (State.resetOf c).Inv := fun c hvalid =>
    ⟨hvalid, inv_resetWith hvalid 0 0 0 rfl rfl⟩
  exact ⟨fun s hvalid hreset => hreset.inv hvalid, hof, hof _ (by decide)⟩

/-- Settles O39: the invariant holds along the run, and the chain's last bound is the pointer's width. -/
theorem reachablePointerChain : Obligations.ReachablePointerChain := by
  intro s t n hvalid hreset hrun
  obtain ⟨hvalid', hinv⟩ := (State.run_steps hrun).inv (hreset.inv hvalid)
  obtain ⟨hrw, hww⟩ := hinv.ringOrdered.chain
  obtain ⟨-, hpow⟩ := Params.ring_of_valid hvalid'
  have hlt : ahead (readView t.regs) t.regs.wptr < 2 ^ t.cfg.ptrW := BitVec.isLt _
  exact ⟨hrw, hww, by omega⟩

/-- Settles O43: the queue of R44 over the run, which starts with no frame held. -/
theorem poppedFramesWerePushedSinceReset : Obligations.PoppedFramesWerePushedSinceReset := by
  intro s t n hvalid hreset hrun hnoreset
  have hqueue := runsAreFirstInFirstOut s t n (hreset.inv hvalid) hrun hnoreset
  have hempty : contents s.regs = [] := by
    obtain ⟨a, b, e, m, -, -, hregs⟩ := hreset
    rw [hregs]
    exact contents_of_occupancy_zero (ahead_self _)
  rw [hempty, List.map_nil, List.nil_append] at hqueue
  refine ⟨⟨_, hqueue.symm⟩, ?_⟩
  rw [hqueue, List.length_append, List.length_map, contents_length]

end Sys2Proof.Machine
end

section
/-! R83: what a receiver sees moves forward only, and not past the source. -/

namespace Sys2Proof.Machine

/-- Settles O40: only the receiving clock moves a view, to its synchronizer's first stage, which lies
between the view and the cursor. -/
theorem viewsNeverMoveBackward : Obligations.ViewsNeverMoveBackward := by
  intro s r' ⟨_, hinv⟩ hrst hstep
  obtain ⟨i, hi, rfl⟩ := step_after hstep
  have hring := hinv.ringOrdered
  obtain ⟨hread, -, hwrite⟩ := hring.order
  have hwrite' : s.regs.wg.inOrder (ahead (writeView s.regs)) := Crossing.inOrder_rebase hwrite le_rfl
  obtain ⟨-, hread1s, -⟩ := hread
  obtain ⟨-, hwrite1s, -⟩ := hwrite'
  rw [hring.rg_src, gray2bin_bin2gray] at hread1s
  rw [hring.wg_src, gray2bin_bin2gray] at hwrite1s
  cases hclock : s.drive.clock with
  | capture =>
    have hcapture := isCapture_of_capture hi hrst hclock
    rw [readView_effect_of_isCapture hcapture, writeView_effect_of_isCapture hcapture, ahead_self]
    exact ⟨hread1s, Nat.zero_le _⟩
  | drain =>
    have hdrain := isDrain_of_drain hi hrst hclock
    rw [readView_effect_of_isDrain hdrain, writeView_effect_of_isDrain hdrain, ahead_self]
    exact ⟨Nat.zero_le _, hwrite1s⟩

section
variable {c : Params} {r : Regs c}

/-- What the drain domain shows has been counted (R98). -/
theorem outDropped_le_drop (hgray : GrayCopies r) (h : r.dg.inOrder BitVec.toNat) :
    (outDropped r).toNat ≤ r.drop.toNat := by
  obtain ⟨-, -, hdg⟩ := hgray
  obtain ⟨h21, h1s, -⟩ := h
  rw [hdg, gray2bin_bin2gray] at h1s
  exact h21.trans h1s

/-- Nothing but RESET lowers the drop count (R26). -/
theorem drop_le_effect {i : Instr} (hreset : i ≠ .reset) (d : Drive) :
    r.drop.toNat ≤ (Instr.effect i d r).drop.toNat := by
  by_cases hdrop : i = .capDrop
  · subst hdrop
    exact toNat_le_sat_succ r.drop
  · rw [effect_drop hdrop hreset]

/-- Nothing but RESET lowers the drop count shown (R98). -/
theorem outDropped_le_effect (h : r.dg.inOrder BitVec.toNat) {i : Instr} (hreset : i ≠ .reset)
    (d : Drive) : (outDropped r).toNat ≤ (outDropped (Instr.effect i d r)).toNat := by
  obtain hcapture | hdrain | rfl := isCapture_or_isDrain_or_reset i
  · rw [outDropped_effect_of_isCapture hcapture]
  · obtain ⟨h21, -⟩ := h
    rwa [outDropped_effect_of_isDrain hdrain]
  · exact absurd rfl hreset

end

/-- Settles O49: the order of the drop count's crossing, kept by the step, and its clocks' two parts. -/
theorem dropCountNeverDecreases : Obligations.DropCountNeverDecreases := by
  intro s r' ⟨_, hinv⟩ hrst hstep
  obtain ⟨i, hi, rfl⟩ := step_after hstep
  have hreset := ne_reset_of_released hi hrst
  obtain ⟨hgray, -, hdrop, -⟩ := hinv
  exact ⟨drop_le_effect hreset _, outDropped_le_effect hdrop hreset _,
    outDropped_le_drop (grayCopies_effect hgray i _) (dropOrder_effect hgray hdrop i _)⟩

end Sys2Proof.Machine
end

section
/-! R39, R95, R103, R117: what a step reads and writes of the other domain. The registers of a domain
are taken as one tuple, so that "as before" is one equation. -/

namespace Sys2Proof.Machine

section
variable {c : Params}

/-- The hardware registers of the capture domain and the slots (10_state.md section 3, R30). -/
def captureDomain (r : Regs c) :=
  (r.inS1, r.inS2, r.inPrev, r.armCnt, r.presc, r.ts, r.lastT, r.lastValid, r.wptr, r.wg.src, r.drop,
    r.dg.src, r.rg.s1, r.rg.s2, r.slots)

/-- The hardware registers of the drain domain (10_state.md section 4). -/
def drainDomain (r : Regs c) :=
  (r.rptr, r.rg.src, r.wg.s1, r.wg.s2, r.dg.s1, r.dg.s2)

theorem sameCaptureDomain_iff {r r' : Regs c} :
    SameCaptureDomain r r' ↔ captureDomain r' = captureDomain r := by
  simp only [captureDomain, Prod.mk.injEq, and_assoc]

theorem sameDrainDomain_iff {r r' : Regs c} :
    SameDrainDomain r r' ↔ drainDomain r' = drainDomain r := by
  simp only [drainDomain, Prod.mk.injEq]

/-! ### A domain without its clock (R117) -/

theorem captureDomain_pop (r : Regs c) : captureDomain (pop r).2 = captureDomain r := by
  obtain ⟨-, he⟩ | ⟨-, he⟩ := pop_cases r <;> rw [he]
  unfold captureDomain
  rw [Crossing.write_s1, Crossing.write_s2]

/-- No drain operation writes a register of the capture domain or a slot (R80). -/
theorem captureDomain_effect_of_isDrain {i : Instr} (h : i.isDrain = true) (d : Drive) (r : Regs c) :
    captureDomain (Instr.effect i d r) = captureDomain r := by
  cases i with
  | drnEmpty | drnHold => rfl
  | drnPop => exact captureDomain_pop r
  | capArm | capQuiet | capReject | capPush | capDrop | reset => cases h

/-- No capture operation writes a register of the drain domain. -/
theorem drainDomain_effect_of_isCapture {i : Instr} (h : i.isCapture = true) (d : Drive)
    (r : Regs c) : drainDomain (Instr.effect i d r) = drainDomain r := by
  obtain ⟨hwg1, hwg2⟩ := effect_wg_stages_of_isCapture h d r
  obtain ⟨hdg1, hdg2⟩ := effect_dg_stages_of_isCapture h d r
  unfold drainDomain
  rw [effect_rptr_of_isCapture h, effect_rg_src_of_isCapture h, hwg1, hwg2, hdg1, hdg2]

end

section
variable {s t : State} {ops : List Instr}

theorem Steps.captureDomain_of_isDrain (h : Steps s ops t) {r' : Regs s.cfg} {ds : List Drive}
    {k : Nat} (ht : t = ⟨s.cfg, r', ds, k⟩) (hall : ∀ i ∈ ops, i.isDrain = true) :
    captureDomain r' = captureDomain s.regs := by
  induction h with
  | nil s =>
    obtain ⟨⟩ := s
    cases ht
    rfl
  | cons _ _ _ ih =>
    obtain ⟨hdrain, hlater⟩ := List.forall_mem_cons.mp hall
    exact (ih ht hlater).trans (captureDomain_effect_of_isDrain hdrain _ _)

theorem Steps.drainDomain_of_isCapture (h : Steps s ops t) {r' : Regs s.cfg} {ds : List Drive}
    {k : Nat} (ht : t = ⟨s.cfg, r', ds, k⟩) (hall : ∀ i ∈ ops, i.isCapture = true) :
    drainDomain r' = drainDomain s.regs := by
  induction h with
  | nil s =>
    obtain ⟨⟩ := s
    cases ht
    rfl
  | cons _ _ _ ih =>
    obtain ⟨hcapture, hlater⟩ := List.forall_mem_cons.mp hall
    exact (ih ht hlater).trans (drainDomain_effect_of_isCapture hcapture _ _)

end

/-- Settles O34, by induction on the run: no operation of one clock writes a register of the other's
domain. -/
theorem stoppedClockKeepsItsDomain : Obligations.StoppedClockKeepsItsDomain := by
  intro s n k r' ds hrun
  have hsteps := State.run_steps hrun
  exact ⟨fun hall => sameCaptureDomain_iff.mpr (hsteps.captureDomain_of_isDrain rfl hall),
    fun hall => sameDrainDomain_iff.mpr (hsteps.drainDomain_of_isCapture rfl hall)⟩

/-! ### The operation of an edge without `RST` -/

section
variable {s : State} {r' : Regs s.cfg}

theorem effect_of_capture_edge (hrst : s.drive.rst = .released) (hclock : s.drive.clock = .capture)
    (h : step s = .next (s.after r')) :
    r' = Instr.effect (decodeCsel (csel s.regs)) s.drive s.regs := by
  obtain ⟨i, hi, rfl⟩ := step_after h
  rw [selectVec_of_capture hrst hclock] at hi
  rw [Except.ok.inj hi]

theorem effect_of_drain_edge (hrst : s.drive.rst = .released) (hclock : s.drive.clock = .drain)
    (h : step s = .next (s.after r')) :
    r' = Instr.effect (decodeDsel (dsel s.regs s.drive.outReady)) s.drive s.regs := by
  obtain ⟨i, hi, rfl⟩ := step_after h
  rw [selectVec_of_drain hrst hclock] at hi
  rw [Except.ok.inj hi]

end

/-! ### A capture step, whatever the drain domain holds (R95) -/

section
variable {c : Params} {r₁ r₂ : Regs c}

/-- The registers `r` with what the drain domain of `o` holds, the crossing into the capture domain
aside. -/
def Regs.withDrainOf (r o : Regs c) : Regs c :=
  { r with
    rptr := o.rptr
    wg := { o.wg with src := r.wg.src }
    dg := { o.dg with src := r.dg.src } }

/-- Register files that agree on the capture domain and the crossing of `RGRAY` differ in what
`withDrainOf` replaces. -/
theorem eq_withDrainOf (h : captureDomain r₂ = captureDomain r₁) (hrg : r₂.rg = r₁.rg) :
    r₂ = Regs.withDrainOf r₁ r₂ := by
  simp only [captureDomain, Prod.mk.injEq] at h
  obtain ⟨hS1, hS2, hPrev, hArm, hPresc, hTs, hLastT, hLastValid, hWptr, hWg, hDrop, hDg, -, -,
    hSlots⟩ := h
  rw [Regs.withDrainOf, ← hS1, ← hS2, ← hPrev, ← hArm, ← hPresc, ← hTs, ← hLastT, ← hLastValid,
    ← hWptr, ← hWg, ← hDrop, ← hDg, ← hSlots, ← hrg]

theorem csel_congr (h : captureDomain r₂ = captureDomain r₁) (hrg : r₂.rg = r₁.rg) :
    csel r₂ = csel r₁ := by
  rw [eq_withDrainOf h hrg]
  rfl

theorem captureDomain_captureCommon (h : captureDomain r₂ = captureDomain r₁)
    (hrg : r₂.rg = r₁.rg) (d : Drive) :
    captureDomain (captureCommon d r₂) = captureDomain (captureCommon d r₁) := by
  rw [eq_withDrainOf h hrg]
  rfl

theorem captureDomain_push_withDrainOf (f : BitVec c.frameW) (r o : Regs c) :
    captureDomain (push f (Regs.withDrainOf r o)).2 = captureDomain (push f r).2 := by
  have hfull : full (Regs.withDrainOf r o) = full r := rfl
  unfold push
  rw [hfull]
  cases full r with
  | true => rfl
  | false =>
    unfold captureDomain
    rw [if_neg Bool.false_ne_true, if_neg Bool.false_ne_true, Crossing.write_src, Crossing.write_src]
    rfl

/-- No capture operation reads a register that `withDrainOf` replaces. -/
theorem captureDomain_effect_withDrainOf {i : Instr} (h : i.isCapture = true) (d : Drive)
    (r o : Regs c) :
    captureDomain (Instr.effect i d (Regs.withDrainOf r o)) = captureDomain (Instr.effect i d r) := by
  cases i with
  | capArm | capQuiet | capReject => rfl
  | capPush =>
    have hrg : ∀ x : Regs c, (push (encodeFrame x.ts (snapshot x)) (deadbandUpdate x)).2.rg = x.rg :=
      fun x => (push_sameConsumer _ _).2
    exact captureDomain_captureCommon
      (captureDomain_push_withDrainOf _ (deadbandUpdate r) (deadbandUpdate o))
      ((hrg (Regs.withDrainOf r o)).trans (hrg r).symm) d
  | capDrop =>
    have hcount : captureDomain (countDrop (deadbandUpdate (Regs.withDrainOf r o))) =
        captureDomain (countDrop (deadbandUpdate r)) := by
      unfold captureDomain
      rw [countDrop_dg, countDrop_dg, Crossing.write_src, Crossing.write_src]
      rfl
    exact captureDomain_captureCommon hcount rfl d
  | drnEmpty | drnHold | drnPop | reset => cases h

end

/-- Settles O32: registers that agree as stated form one `CSEL`, and the operation it selects reads no
register in which they may differ. -/
theorem captureDomainIsIsolated : Obligations.CaptureDomainIsIsolated := by
  intro c r₁ r₂ r₁' r₂' d ds n hrst hclock hsame hrg hstep₁ hstep₂
  rw [sameCaptureDomain_iff] at hsame ⊢
  have h₁ : r₁' = Instr.effect (decodeCsel (csel r₁)) d r₁ :=
    effect_of_capture_edge (s := ⟨c, r₁, d :: ds, n⟩) hrst hclock hstep₁
  have h₂ : r₂' = Instr.effect (decodeCsel (csel r₂)) d r₂ :=
    effect_of_capture_edge (s := ⟨c, r₂, d :: ds, n⟩) hrst hclock hstep₂
  have hcsel := csel_congr hsame hrg
  have hcapture := decodeCsel_isCapture (csel r₁)
  rw [h₁, h₂, hcsel]
  refine ⟨rfl, ?_, ?_⟩
  · rw [eq_withDrainOf hsame hrg]
    exact captureDomain_effect_withDrainOf hcapture d r₁ r₂
  · rw [effect_rg_of_isCapture hcapture, effect_rg_of_isCapture hcapture, hrg]

/-! ### A drain step, whatever the capture domain holds (R103) -/

section
variable {c : Params} {r₁ r₂ : Regs c}

/-- The read cursor and its Gray copy after a drain operation. -/
theorem effect_cursor_of_isDrain {i : Instr} (h : i.isDrain = true) (d : Drive) (r : Regs c) :
    ((Instr.effect i d r).rptr, (Instr.effect i d r).rg.src) =
      if i = .drnPop ∧ empty r = false then (inc r.rptr, bin2gray (inc r.rptr))
      else (r.rptr, r.rg.src) := by
  cases i with
  | drnEmpty | drnHold => exact (if_neg fun hpop => nomatch hpop.1).symm
  | drnPop =>
    change ((pop r).2.rptr, (pop r).2.rg.src) = _
    obtain ⟨hempty, he⟩ | ⟨hempty, he⟩ := pop_cases r <;> rw [he]
    · rw [if_neg fun hpop => by rw [hempty] at hpop; cases hpop.2]
    · rw [if_pos ⟨rfl, hempty⟩, Crossing.write_src]
  | capArm | capQuiet | capReject | capPush | capDrop | reset => cases h

theorem empty_congr (hrptr : r₂.rptr = r₁.rptr) (hwg : r₂.wg = r₁.wg) : empty r₂ = empty r₁ := by
  rw [empty, writeView, hrptr, hwg, empty, writeView]

end

/-- Settles O33: registers that agree as stated form one `DSEL`, and a drain operation's writes are
functions of the agreed registers. -/
theorem drainDomainIsIsolated : Obligations.DrainDomainIsIsolated := by
  intro c r₁ r₂ r₁' r₂' d ds n hrst hclock hrptr hsrc hwg hdg hstep₁ hstep₂
  have h₁ : r₁' = Instr.effect (decodeDsel (dsel r₁ d.outReady)) d r₁ :=
    effect_of_drain_edge (s := ⟨c, r₁, d :: ds, n⟩) hrst hclock hstep₁
  have h₂ : r₂' = Instr.effect (decodeDsel (dsel r₂ d.outReady)) d r₂ :=
    effect_of_drain_edge (s := ⟨c, r₂, d :: ds, n⟩) hrst hclock hstep₂
  have hempty := empty_congr hrptr hwg
  have hvalid : outValid r₂ = outValid r₁ := congrArg not hempty
  have hdsel : dsel r₂ d.outReady = dsel r₁ d.outReady := congrArg (bits2 · d.outReady) hvalid
  have hdrain := decodeDsel_isDrain (dsel r₁ d.outReady)
  rw [h₁, h₂, hdsel]
  have hcursor := effect_cursor_of_isDrain hdrain d r₂
  rw [hempty, hrptr, hsrc, ← effect_cursor_of_isDrain hdrain d r₁, Prod.mk.injEq] at hcursor
  obtain ⟨hrptr', hsrc'⟩ := hcursor
  refine ⟨⟨hrptr', hsrc', ?_, ?_⟩, hvalid.symm, ?_, fun hslot => ?_⟩
  · rw [effect_wg_of_isDrain hdrain, effect_wg_of_isDrain hdrain, hwg]
  · rw [effect_dg_of_isDrain hdrain, effect_dg_of_isDrain hdrain, hdg]
  · rw [outDropped, outDropped, hdg]
  · rw [outFrame, outFrame, hvalid, hrptr, hslot]

end Sys2Proof.Machine
end

section
/-! R83, R130, R131: how many receiving edges a view still needs. Each is a predicate of the number of
edges left, which every receiving edge lowers and no other step disturbs. -/

namespace Sys2Proof.Machine

/-- A predicate that a receiving operation (`q`) takes one edge down, and any other operation that the
run performs (`ok`) leaves, is down to 0 after as many receiving operations as it started with. -/
theorem Steps.countdown {P : Nat → State → Prop} {q : Instr → Bool} {ok : Instr → Prop}
    (hreceive : ∀ (s : State) (i : Instr) (m : Nat), decode s.selectVec = .ok i → ok i → q i = true →
      P m s → P (m - 1) (s.after (Instr.effect i s.drive s.regs)))
    (hother : ∀ (s : State) (i : Instr) (m : Nat), decode s.selectVec = .ok i → ok i → q i = false →
      P m s → P m (s.after (Instr.effect i s.drive s.regs)))
    {s t : State} {ops : List Instr} (h : Steps s ops t) (hok : ∀ i ∈ ops, ok i) {m : Nat}
    (hm : m ≤ ops.countP q) (hP : P m s) : P 0 t := by
  induction h generalizing m with
  | nil => rwa [Nat.le_zero.mp hm] at hP
  | cons hi _ _ ih =>
    obtain ⟨hoki, hlater⟩ := List.forall_mem_cons.mp hok
    rw [List.countP_cons] at hm
    split at hm
    · rename_i hq
      exact ih hlater (by omega) (hreceive _ _ m hi hoki hq hP)
    · rename_i hq
      exact ih hlater hm (hother _ _ m hi hoki (Bool.eq_false_iff.mpr hq) hP)

/-! ### A source that stands still (R83) -/

/-- After `m` more samples the crossing shows its source, if that is not written. -/
def Crossing.settlesIn {w : Nat} (x : Crossing w) : Nat → Prop
  | 0 => x.s2 = x.src ∧ x.s1 = x.src ∧ x.chg = false
  | 1 => x.s1 = x.src ∧ x.chg = false
  | 2 => x.chg = false
  | _ + 3 => True

theorem Crossing.settlesIn_sample {w m : Nat} {x : Crossing w} (h : x.settlesIn m) (old : Bool) :
    (x.sample old).settlesIn (m - 1) := by
  have hnext : x.chg = false → (x.sample old).s1 = x.src := fun hchg => by
    rw [Crossing.sample_s1, hchg, Bool.false_and, if_neg Bool.false_ne_true]
  match m with
  | 0 =>
    obtain ⟨-, hs1, hchg⟩ := h
    exact ⟨hs1, hnext hchg, rfl⟩
  | 1 =>
    obtain ⟨hs1, hchg⟩ := h
    exact ⟨hs1, hnext hchg, rfl⟩
  | 2 => exact ⟨hnext h, rfl⟩
  | 3 => exact (rfl : (x.sample old).chg = false)
  | _ + 4 => exact trivial

/-- Settles O52: a first sample that took the source leaves one more to make, any first sample two. -/
theorem synchronizerSettles : Obligations.SynchronizerSettles := by
  intro w x o₁ o₂ o₃
  refine ⟨fun h => ?_, ?_⟩
  · have hfirst : (x.sample o₁).settlesIn 1 := by
      refine ⟨?_, rfl⟩
      obtain h | h := h <;> simp [h]
    exact (Crossing.settlesIn_sample hfirst o₂).1
  · have hstart : x.settlesIn 3 := trivial
    exact (Crossing.settlesIn_sample (Crossing.settlesIn_sample
      (Crossing.settlesIn_sample hstart o₁) o₂) o₃).1

section
variable {c : Params} {i : Instr}

/-- Without a pop a drain operation leaves the read cursor and its crossing. -/
theorem effect_sameConsumer (h : i.isDrain = true) (hpop : i ≠ .drnPop) (d : Drive) (r : Regs c) :
    SameConsumer r (Instr.effect i d r) := by
  cases i with
  | drnEmpty | drnHold => exact ⟨rfl, rfl⟩
  | drnPop => exact absurd rfl hpop
  | capArm | capQuiet | capReject | capPush | capDrop | reset => cases h

/-- Without a push a capture operation leaves the write cursor's crossing. -/
theorem effect_wg_of_no_push (h : i.isCapture = true) (hpush : i ≠ .capPush) (d : Drive)
    (r : Regs c) : (Instr.effect i d r).wg = r.wg := by
  cases i with
  | capArm | capQuiet | capReject | capDrop => rfl
  | capPush => exact absurd rfl hpush
  | drnEmpty | drnHold | drnPop | reset => cases h

/-- Without a drop a capture operation leaves the drop count's crossing. -/
theorem effect_dg_of_no_drop (h : i.isCapture = true) (hdrop : i ≠ .capDrop) (d : Drive)
    (r : Regs c) : (Instr.effect i d r).dg = r.dg := by
  cases i with
  | capArm | capQuiet | capReject => rfl
  | capPush => exact (push_sameDrops _ (deadbandUpdate r)).2
  | capDrop => exact absurd rfl hdrop
  | drnEmpty | drnHold | drnPop | reset => cases h

end

section
variable {s t : State} {ops : List Instr}

/-- Of a list without `a` and `b`, every operation is neither. -/
theorem forall_mem_ne {a b : Instr} (ha : a ∉ ops) (hb : b ∉ ops) : ∀ i ∈ ops, i ≠ a ∧ i ≠ b :=
  fun _ hi => ⟨ne_of_mem_of_not_mem hi ha, ne_of_mem_of_not_mem hi hb⟩

/-- A crossing that the receiving operations sample and the others leave shows its source after three
samples. -/
theorem Steps.settles {width : Params → Nat} (x : ∀ {c : Params}, Regs c → Crossing (width c))
    {q : Instr → Bool} {ok : Instr → Prop}
    (hsample : ∀ {c : Params} (i : Instr) (d : Drive) (r : Regs c), q i = true →
      ∃ old, x (Instr.effect i d r) = (x r).sample old)
    (hstill : ∀ {c : Params} (i : Instr) (d : Drive) (r : Regs c), ok i → q i = false →
      x (Instr.effect i d r) = x r)
    (h : Steps s ops t) (hok : ∀ i ∈ ops, ok i) (hcount : 3 ≤ ops.countP q) :
    (x t.regs).s2 = (x t.regs).src := by
  have hend := h.countdown (P := fun m s => (x s.regs).settlesIn m) (fun s i m _ _ hq hP => ?_)
    (fun s i m _ hi hq hP => ?_) hok hcount trivial
  · exact hend.1
  · obtain ⟨old, he⟩ := hsample i s.drive s.regs hq
    have hnext : (x (Instr.effect i s.drive s.regs)).settlesIn (m - 1) := by
      rw [he]
      exact Crossing.settlesIn_sample hP old
    exact hnext
  · have hkept : (x (Instr.effect i s.drive s.regs)).settlesIn m := by
      rwa [hstill i s.drive s.regs hi hq]
    exact hkept

theorem Steps.rg_settles (h : Steps s ops t) (hreset : .reset ∉ ops) (hpop : .drnPop ∉ ops)
    (hcount : 3 ≤ ops.countP Instr.isCapture) : t.regs.rg.s2 = t.regs.rg.src :=
  h.settles Regs.rg (fun _ d r hq => ⟨_, effect_rg_of_isCapture hq d r⟩)
    (fun _ d r hok hq =>
      (effect_sameConsumer (isDrain_of_not_isCapture hq hok.1) hok.2 d r).2)
    (forall_mem_ne hreset hpop) hcount

theorem Steps.wg_settles (h : Steps s ops t) (hreset : .reset ∉ ops) (hpush : .capPush ∉ ops)
    (hcount : 3 ≤ ops.countP Instr.isDrain) : t.regs.wg.s2 = t.regs.wg.src :=
  h.settles Regs.wg (fun _ d r hq => ⟨_, effect_wg_of_isDrain hq d r⟩)
    (fun _ d r hok hq => effect_wg_of_no_push (isCapture_of_not_isDrain hq hok.1) hok.2 d r)
    (forall_mem_ne hreset hpush) hcount

theorem Steps.dg_settles (h : Steps s ops t) (hreset : .reset ∉ ops) (hdrop : .capDrop ∉ ops)
    (hcount : 3 ≤ ops.countP Instr.isDrain) : t.regs.dg.s2 = t.regs.dg.src :=
  h.settles Regs.dg (fun _ d r hq => ⟨_, effect_dg_of_isDrain hq d r⟩)
    (fun _ d r hok hq => effect_dg_of_no_drop (isCapture_of_not_isDrain hq hok.1) hok.2 d r)
    (forall_mem_ne hreset hdrop) hcount

end

/-- Settles O53: three samples make each crossing show its source, which the invariant keeps the Gray
code of its counter. -/
theorem viewsBecomeExact : Obligations.ViewsBecomeExact := by
  intro s t n hinv hrun hreset
  have hsteps := State.run_steps hrun
  obtain ⟨-, ⟨hwg, hrg, hdg⟩, -⟩ := hsteps.inv hinv
  refine ⟨fun hpop hcount => ?_, fun hpush hcount => ?_, fun hdrop hcount => ?_⟩
  · rw [readView, hsteps.rg_settles hreset hpop hcount, hrg, gray2bin_bin2gray]
  · rw [writeView, hsteps.wg_settles hreset hpush hcount, hwg, gray2bin_bin2gray]
  · rw [outDropped, hsteps.dg_settles hreset hdrop hcount, hdg, gray2bin_bin2gray]

/-! ### A held frame while the producer goes on (R130) -/

/-- After `m` more drain samples the view of the write cursor is past the read cursor, whatever is
pushed: first no pending previous value shows an empty ring, then not the first stage, then not the
second. -/
def visibleIn {c : Params} (r : Regs c) : Nat → Prop
  | 0 => outValid r = true
  | 1 => r.rptr ≠ gray2bin r.wg.s1
  | 2 => r.wg.chg = true → r.rptr ≠ gray2bin r.wg.prev
  | _ + 3 => True

/-- The ring is in order and holds a frame, which `m` more drain samples make visible. -/
structure HeldVisibleIn {c : Params} (m : Nat) (r : Regs c) : Prop where
  ring : RingOrdered r
  held : r.rptr ≠ r.wptr
  visible : visibleIn r m

theorem occupancy_pos_iff {c : Params} {r : Regs c} : 0 < occupancy r ↔ r.rptr ≠ r.wptr := by
  rw [Nat.pos_iff_ne_zero, not_iff_not, occupancy, ← ahead_self r.rptr]
  exact ⟨fun h => (eq_of_ahead_eq h).symm, fun h => by rw [← h]⟩

section
variable {s : State} {i : Instr} {m : Nat}

/-- A ring that holds a frame still does after a step that neither pops nor resets. -/
theorem RingOrdered.held_effect (h : RingOrdered s.regs) (hheld : s.regs.rptr ≠ s.regs.wptr)
    (hi : decode s.selectVec = .ok i) (hreset : i ≠ .reset) (hpop : i ≠ .drnPop) :
    (Instr.effect i s.drive s.regs).rptr ≠ (Instr.effect i s.drive s.regs).wptr := by
  have hcount := h.effect_occupancy hi hreset
  rw [← occupancy_pos_iff] at hheld ⊢
  rw [if_neg hpop] at hcount
  omega

theorem HeldVisibleIn.drain (h : HeldVisibleIn m s.regs) (hi : decode s.selectVec = .ok i)
    (hdrain : i.isDrain = true) (hreset : i ≠ .reset) (hpop : i ≠ .drnPop) :
    HeldVisibleIn (m - 1) (Instr.effect i s.drive s.regs) := by
  obtain ⟨hring, hheld, hvisible⟩ := h
  refine ⟨ringOrdered_effect hring i _, hring.held_effect hheld hi hreset hpop, ?_⟩
  have hrptr := (effect_sameConsumer hdrain hpop s.drive s.regs).1
  have hwg := effect_wg_of_isDrain hdrain s.drive s.regs
  match m with
  | 0 => exact hring.outValid_effect hvisible hpop hreset _
  | 1 =>
    refine outValid_iff.mpr ?_
    rw [writeView_effect_of_isDrain hdrain, hrptr]
    exact hvisible
  | 2 =>
    change (Instr.effect i s.drive s.regs).rptr ≠ gray2bin (Instr.effect i s.drive s.regs).wg.s1
    rw [hrptr, hwg, Crossing.sample_s1]
    split
    · rename_i hold
      exact hvisible (Bool.and_eq_true_iff.mp hold).1
    · rwa [hring.wg_src, gray2bin_bin2gray]
  | 3 =>
    intro hchg
    rw [hwg, Crossing.sample_chg] at hchg
    cases hchg
  | _ + 4 => exact trivial

theorem HeldVisibleIn.capture (h : HeldVisibleIn m s.regs) (hi : decode s.selectVec = .ok i)
    (hcapture : i.isCapture = true) (hreset : i ≠ .reset) (hpop : i ≠ .drnPop) :
    HeldVisibleIn m (Instr.effect i s.drive s.regs) := by
  obtain ⟨hring, hheld, hvisible⟩ := h
  refine ⟨ringOrdered_effect hring i _, hring.held_effect hheld hi hreset hpop, ?_⟩
  have hrptr := effect_rptr_of_isCapture hcapture s.drive s.regs
  match m with
  | 0 => exact (outValid_effect_of_isCapture hcapture s.drive).trans hvisible
  | 1 =>
    change (Instr.effect i s.drive s.regs).rptr ≠ gray2bin (Instr.effect i s.drive s.regs).wg.s1
    rw [hrptr, (effect_wg_stages_of_isCapture hcapture _ _).1]
    exact hvisible
  | 2 =>
    intro hchg
    obtain ⟨-, hmoved, hkept, -⟩ :=
      changed_of_write (effect_wg_of_isCapture hcapture s.drive s.regs)
    rw [hrptr]
    by_cases hsrc : (Instr.effect i s.drive s.regs).wg.src = s.regs.wg.src
    · obtain ⟨hprev, hchg'⟩ := hkept hsrc
      rw [hprev]
      exact hvisible (hchg'.symm.trans hchg)
    · rwa [(hmoved hsrc).1, hring.wg_src, gray2bin_bin2gray]
  | _ + 3 => exact trivial

end

/-- Settles O54: the first drain sample ends any change pending since before it, and what is sampled
after that lies past the frame held. -/
theorem heldFrameBecomesVisible : Obligations.HeldFrameBecomesVisible := by
  intro s t n ⟨_, hinv⟩ hheld hrun hreset hpop hcount
  have hstart : HeldVisibleIn 3 s.regs := ⟨hinv.ringOrdered, occupancy_pos_iff.mp hheld, trivial⟩
  have hend := (State.run_steps hrun).countdown (P := fun m s => HeldVisibleIn m s.regs)
    (fun s i m hi hok hq hP => hP.drain hi hq hok.1 hok.2)
    (fun s i m hi hok hq hP => hP.capture hi (isCapture_of_not_isDrain hq hok.1) hok.1 hok.2)
    (forall_mem_ne hreset hpop) hcount hstart
  exact hend.visible

end Sys2Proof.Machine
end

section
/-! R20 to R22: the counters of the capture clock, counted in capture edges. -/

namespace Sys2Proof

/-- `n` values fit a register of `ceil(log2 n)` bits (R21). -/
theorem le_two_pow_ceilLog2 (n : Nat) : n ≤ 2 ^ ceilLog2 n := by
  unfold ceilLog2
  split
  · exact (by omega : n ≤ 1)
  · have hlt : n - 1 < 2 ^ (Nat.log2 (n - 1) + 1) := Nat.lt_log2_self
    omega

end Sys2Proof

namespace Sys2Proof.Machine

section
variable {c : Params} {i : Instr}

/-- A capture operation does the common part, whatever it does beside (R87). -/
theorem effect_captureCommonEffect (hvalid : c.valid = true) (h : i.isCapture = true) (d : Drive)
    (r : Regs c) : CaptureCommonEffect d r (Instr.effect i d r) := by
  obtain ⟨r₀, he, hsampler, -, hrg⟩ := effect_eq_captureCommon h d r
  rw [he]
  exact (captureCommon_effect (Params.ticks_of_valid hvalid) d r₀).of_same hsampler hrg

/-- A drain operation leaves the sampler (R103). -/
theorem effect_sameSampler_of_isDrain (h : i.isDrain = true) (d : Drive) (r : Regs c) :
    SameSampler r (Instr.effect i d r) := by
  cases i with
  | drnEmpty | drnHold => exact ⟨rfl, rfl, rfl, rfl, rfl, rfl⟩
  | drnPop => exact pop_sameSampler r
  | capArm | capQuiet | capReject | capPush | capDrop | reset => cases h

end

/-! ### The count (R20, R22, R85, R88) -/

/-- The registers of a block that has had `k` capture edges since its reset. -/
structure CountsEdges {c : Params} (k : Nat) (r : Regs c) : Prop where
  armCnt : r.armCnt.toNat = min k 3
  ts : r.ts.toNat = (k - 3) / c.ticksPerUs % 2 ^ c.tsW
  presc : r.presc.toNat = (k - 3) % c.ticksPerUs

/-- One more edge either completes a microsecond or does not. -/
theorem succ_div_mod {m T : Nat} (hT : 1 ≤ T) :
    (m % T = T - 1 ∧ (m + 1) / T = m / T + 1 ∧ (m + 1) % T = 0) ∨
      (m % T ≠ T - 1 ∧ (m + 1) / T = m / T ∧ (m + 1) % T = m % T + 1) := by
  have hdecomp := Nat.div_add_mod m T
  have hmod : m % T < T := Nat.mod_lt m hT
  by_cases hlast : m % T = T - 1
  · have hnext : m + 1 = T * (m / T + 1) := by
      rw [Nat.mul_succ]
      omega
    exact .inl ⟨hlast, by rw [hnext, Nat.mul_div_cancel_left _ hT], by rw [hnext, Nat.mul_mod_right]⟩
  · have hnext : m + 1 = m % T + 1 + T * (m / T) := by omega
    have hlt : m % T + 1 < T := by omega
    refine .inr ⟨hlast, ?_, ?_⟩
    · rw [hnext, Nat.add_mul_div_left _ _ hT, Nat.div_eq_of_lt hlt, Nat.zero_add]
    · conv_lhs => rw [hnext, Nat.add_mul_mod_self_left, Nat.mod_eq_of_lt hlt]

theorem CountsEdges.capture {c : Params} {k : Nat} {r r' : Regs c} {d : Drive}
    (hticks : 1 ≤ c.ticksPerUs) (h : CountsEdges k r) (heffect : CaptureCommonEffect d r r') :
    CountsEdges (k + 1) r' := by
  obtain ⟨harm, hts, hpresc⟩ := h
  obtain ⟨-, -, -, harm', hlast, hmore, hbefore, -⟩ := heffect
  have harmed : r.armCnt = 3#2 ↔ 3 ≤ k := by
    rw [← BitVec.toNat_inj, harm]
    exact ⟨fun h => by change min k 3 = 3 at h; omega, fun h => Nat.min_eq_right h⟩
  have hcount : r'.armCnt.toNat = min (k + 1) 3 := by rw [harm', harm]; omega
  by_cases hk : 3 ≤ k
  · have hm : k + 1 - 3 = (k - 3) + 1 := by omega
    obtain ⟨hmod, hdiv', hmod'⟩ | ⟨hmod, hdiv', hmod'⟩ := succ_div_mod (m := k - 3) hticks
    · obtain ⟨hp, ht⟩ := hlast (harmed.mpr hk) (hpresc.trans hmod)
      refine ⟨hcount, ?_, ?_⟩
      · rw [ht, hts, hm, hdiv', Nat.mod_add_mod]
      · rw [hp, hm, hmod']
        exact BitVec.toNat_zero
    · obtain ⟨hp, ht⟩ := hmore (harmed.mpr hk) (by rwa [hpresc])
      refine ⟨hcount, ?_, ?_⟩
      · rw [ht, hts, hm, hdiv']
      · have hfits : (k - 3) % c.ticksPerUs + 1 < 2 ^ c.prescW := by
          have hle : c.ticksPerUs ≤ 2 ^ c.prescW := le_two_pow_ceilLog2 _
          have hlt : (k - 3) % c.ticksPerUs < c.ticksPerUs := Nat.mod_lt _ hticks
          omega
        calc r'.presc.toNat = (r.presc.toNat + 1) % 2 ^ c.prescW := by rw [hp]; exact inc_toNat _
          _ = (k + 1 - 3) % c.ticksPerUs := by rw [hpresc, Nat.mod_eq_of_lt hfits, hm, hmod']
  · obtain ⟨hp, ht⟩ := hbefore (mt harmed.mp hk)
    have hm : k + 1 - 3 = k - 3 := by omega
    exact ⟨hcount, by rw [ht, hts, hm], by rw [hp, hpresc, hm]⟩

theorem CountsEdges.of_sameSampler {c : Params} {k : Nat} {r r' : Regs c} (h : CountsEdges k r)
    (hsame : SameSampler r r') : CountsEdges k r' := by
  obtain ⟨-, -, -, harm, hpresc, hts⟩ := hsame
  obtain ⟨h1, h2, h3⟩ := h
  exact ⟨harm ▸ h1, hts ▸ h2, hpresc ▸ h3⟩

theorem Steps.countsEdges {s t : State} {ops : List Instr} (h : Steps s ops t)
    (hreset : .reset ∉ ops) {k : Nat} (hk : CountsEdges k s.regs) :
    CountsEdges (k + ops.countP Instr.isCapture) t.regs := by
  induction h generalizing k with
  | nil => exact hk
  | @cons s t i ops hi hstep _ ih =>
    rw [List.mem_cons, not_or] at hreset
    obtain ⟨hne, hlater⟩ := hreset
    obtain ⟨hvalid, -⟩ := step_next hstep
    rw [List.countP_cons]
    cases hcapture : i.isCapture with
    | true =>
      have hnext := hk.capture (Params.ticks_of_valid hvalid)
        (effect_captureCommonEffect hvalid hcapture s.drive s.regs)
      rw [if_pos rfl, Nat.add_comm _ 1, ← Nat.add_assoc]
      exact ih hlater hnext
    | false =>
      have hdrain := isDrain_of_not_isCapture hcapture (Ne.symm hne)
      rw [if_neg Bool.false_ne_true]
      exact ih hlater (hk.of_sameSampler (effect_sameSampler_of_isDrain hdrain _ _))

theorem State.JustReset.countsEdges {s : State} (h : s.JustReset) : CountsEdges 0 s.regs := by
  obtain ⟨a, b, e, m, -, -, hregs⟩ := h
  rw [hregs]
  exact ⟨rfl, by simp, by simp⟩

/-- Settles O50, by induction on the run: a capture step counts one edge, a drain step none. -/
theorem timestampCountsArmedEdges : Obligations.TimestampCountsArmedEdges := by
  intro s t n k _ hreset hrun hnoreset hcount
  have hsteps := State.run_steps hrun
  obtain ⟨harm, hts, hpresc⟩ := hsteps.countsEdges hnoreset hreset.countsEdges
  rw [Nat.zero_add, hcount] at harm hts hpresc
  rw [← hsteps.cfg]
  refine ⟨harm, ?_, hts, hpresc⟩
  rw [armed_iff, harm]
  omega

end Sys2Proof.Machine
end

section
/-! R129, R87: the sampling pipeline over a run. -/

namespace Sys2Proof.Machine

section
variable {s t : State} {ops : List Instr}

/-- Drain steps leave the sampling registers. -/
theorem Steps.samples_of_no_capture (h : Steps s ops t) (hreset : .reset ∉ ops)
    (hcount : ops.countP Instr.isCapture = 0) :
    t.regs.inS2 = s.regs.inS2 ∧ t.regs.inPrev = s.regs.inPrev := by
  induction h with
  | nil => exact ⟨rfl, rfl⟩
  | @cons s t i ops hi hstep _ ih =>
    rw [List.mem_cons, not_or] at hreset
    obtain ⟨hne, hlater⟩ := hreset
    rw [List.countP_cons, Nat.add_eq_zero_iff] at hcount
    obtain ⟨hrest, hfirst⟩ := hcount
    have hdrain : i.isDrain = true :=
      isDrain_of_not_isCapture (by simpa using hfirst) (Ne.symm hne)
    obtain ⟨-, hS2, hPrev, -⟩ := effect_sameSampler_of_isDrain hdrain s.drive s.regs
    obtain ⟨hS2', hPrev'⟩ := ih hlater hrest
    exact ⟨hS2'.trans hS2, hPrev'.trans hPrev⟩

/-- One capture step among drain steps moves the sampling registers on by one stage. -/
theorem Steps.samples_of_one_capture (h : Steps s ops t) (hreset : .reset ∉ ops)
    (hcount : ops.countP Instr.isCapture = 1) :
    t.regs.inS2 = s.regs.inS1 ∧ t.regs.inPrev = s.regs.inS2 := by
  induction h with
  | nil => cases hcount
  | @cons s t i ops hi hstep hrest ih =>
    rw [List.mem_cons, not_or] at hreset
    obtain ⟨hne, hlater⟩ := hreset
    obtain ⟨hvalid, -⟩ := step_next hstep
    cases hcapture : i.isCapture with
    | true =>
      rw [List.countP_cons_of_pos hcapture] at hcount
      obtain ⟨hS2', hPrev'⟩ := hrest.samples_of_no_capture hlater (Nat.succ.inj hcount)
      obtain ⟨-, hS2, hPrev, -⟩ := effect_captureCommonEffect hvalid hcapture s.drive s.regs
      exact ⟨hS2'.trans hS2, hPrev'.trans hPrev⟩
    | false =>
      rw [List.countP_cons_of_neg (by rw [hcapture]; exact Bool.false_ne_true)] at hcount
      have hdrain := isDrain_of_not_isCapture hcapture (Ne.symm hne)
      obtain ⟨hS1, hS2, -⟩ := effect_sameSampler_of_isDrain hdrain s.drive s.regs
      obtain ⟨hS2', hPrev'⟩ := ih hlater hcount
      exact ⟨hS2'.trans hS1, hPrev'.trans hS2⟩

end

/-- Settles O51: the first edge takes the pins into the first stage, and the one capture step that
follows moves them on. -/
theorem pinsReachTheSnapshotInTwoSteps : Obligations.PinsReachTheSnapshotInTwoSteps := by
  intro s t n hrst hclock hrun hreset hcount
  obtain ⟨u, hstep, hrest⟩ := State.run_succ hrun
  obtain ⟨hvalid, -, i, hi, rfl⟩ := step_next hstep
  have hcapture := isCapture_of_capture hi hrst hclock
  rw [State.operations_succ hi hstep] at hreset hcount
  rw [List.countP_cons_of_pos hcapture] at hcount
  obtain ⟨hS2, hPrev⟩ := (State.run_steps hrest).samples_of_one_capture
    (fun hmem => hreset (List.mem_cons_of_mem _ hmem)) (Nat.succ.inj hcount)
  obtain ⟨hlines, hS1, -⟩ := effect_captureCommonEffect hvalid hcapture s.drive s.regs
  have hsnapshot : t.regs.inS2 = s.drive.lines := hS2.trans hlines
  have hprevious : t.regs.inPrev = s.regs.inS1 := hPrev.trans hS1
  refine ⟨hsnapshot, hprevious, fun harmed => ?_⟩
  rw [edge, harmed, Bool.true_and, hsnapshot, hprevious]

end Sys2Proof.Machine
end

section
/-! R66, R69, R70: the deadband on numbers, and over a sequence of edge events. -/

namespace Sys2Proof.Machine

section
variable {c : Params} {b : Deadband c}

/-- R66 on numbers. -/
theorem passAt_iff {v : Bool} {lastT t : BitVec c.tsW} :
    passAt c v lastT t = true ↔
      v = false ∨ c.deadbandUs < (t.toNat + 2 ^ c.tsW - lastT.toNat) % 2 ^ c.tsW := by
  have hlast := lastT.isLt
  have hsub : (t - lastT).toNat = (t.toNat + 2 ^ c.tsW - lastT.toNat) % 2 ^ c.tsW := by
    rw [BitVec.toNat_sub]
    congr 1
    omega
  rw [passAt, hsub, Bool.or_eq_true, Bool.not_eq_true', decide_eq_true_eq]

/-- Settles O17: `PASS` is the verdict at `TS`. -/
theorem deadbandVerdict : Obligations.DeadbandVerdict := fun _ _ => passAt_iff

/-- Without wrap the verdict after an acceptance compares the plain difference. -/
theorem passAt_of_le {lastT t : BitVec c.tsW} (h : lastT.toNat ≤ t.toNat) :
    passAt c true lastT t = true ↔ lastT.toNat + c.deadbandUs < t.toNat := by
  have ht := t.isLt
  have hwrap : (t.toNat + 2 ^ c.tsW - lastT.toNat) % 2 ^ c.tsW = t.toNat - lastT.toNat := by
    rw [show t.toNat + 2 ^ c.tsW - lastT.toNat = t.toNat - lastT.toNat + 2 ^ c.tsW by omega,
      Nat.add_mod_right, Nat.mod_eq_of_lt (by omega)]
  rw [passAt_iff, hwrap]
  simp only [Bool.true_eq_false, false_or]
  omega

theorem accept_of_not_pass {t : BitVec c.tsW} (h : passAt c b.lastValid b.lastT t = false) :
    accept b t = (false, b) := if_neg (Bool.eq_false_iff.mp h)

/-- Settles O18: the filter holds the accepted time, from which the second is no more than the window
away. -/
theorem secondEdgeInWindowIsRejected : Obligations.SecondEdgeInWindowIsRejected := by
  intro c b b' t u haccept hle hwindow
  have hb' : b' = ⟨true, t⟩ := by
    obtain ⟨-, he⟩ | ⟨-, he⟩ := accept_cases b t <;> rw [haccept] at he
    · exact congrArg Prod.snd he
    · cases congrArg Prod.fst he
  subst hb'
  refine accept_of_not_pass (Bool.eq_false_iff.mpr fun hpass => ?_)
  have hfar := (passAt_of_le hle).mp hpass
  omega

/-! ### A sequence of edge events (R70) -/

theorem acceptedTimes_cons (t : BitVec c.tsW) (ts : List (BitVec c.tsW)) :
    (passAt c b.lastValid b.lastT t = true ∧
        acceptedTimes b (t :: ts) = t :: acceptedTimes ⟨true, t⟩ ts) ∨
      (passAt c b.lastValid b.lastT t = false ∧ acceptedTimes b (t :: ts) = acceptedTimes b ts) := by
  obtain ⟨hpass, he⟩ | ⟨hpass, he⟩ := accept_cases b t
  · exact .inl ⟨hpass, by rw [acceptedTimes, he, if_pos rfl]⟩
  · exact .inr ⟨hpass, by rw [acceptedTimes, he, if_neg Bool.false_ne_true]⟩

/-- Times that do not wrap: in order, and none before an acceptance that the filter holds. -/
structure NoWrap (b : Deadband c) (ts : List (BitVec c.tsW)) : Prop where
  ordered : ts.Pairwise (fun x y => x.toNat ≤ y.toNat)
  afterLast : b.lastValid = true → ∀ t ∈ ts, b.lastT.toNat ≤ t.toNat

/-- The statement of R70 for one list of accepted times. -/
structure SpacedOut (b : Deadband c) (accepted : List (BitVec c.tsW)) : Prop where
  apart : accepted.Pairwise (fun x y => x.toNat + c.deadbandUs < y.toNat)
  afterLast : b.lastValid = true → ∀ t ∈ accepted, b.lastT.toNat + c.deadbandUs < t.toNat

/-- R70, by induction on the events: an accepted event becomes the time the rest is measured from, and
is itself more than the window after the one before. -/
theorem acceptedTimes_spacedOut {ts : List (BitVec c.tsW)} (h : NoWrap b ts) :
    SpacedOut b (acceptedTimes b ts) := by
  induction ts generalizing b with
  | nil => exact ⟨.nil, fun _ _ hmem => nomatch hmem⟩
  | cons t ts ih =>
    obtain ⟨hordered, hafter⟩ := h
    obtain ⟨hfirst, hrest⟩ := List.pairwise_cons.mp hordered
    obtain ⟨hpass, he⟩ | ⟨-, he⟩ := acceptedTimes_cons (b := b) t ts <;> rw [he]
    · obtain ⟨hapart, hlater⟩ := ih (b := ⟨true, t⟩) ⟨hrest, fun _ => hfirst⟩
      refine ⟨List.pairwise_cons.mpr ⟨hlater rfl, hapart⟩, fun hv => ?_⟩
      rw [hv] at hpass
      have hfar := (passAt_of_le (hafter hv t List.mem_cons_self)).mp hpass
      refine List.forall_mem_cons.mpr ⟨hfar, fun x hx => ?_⟩
      have hnext := hlater rfl x hx
      exact (hfar.trans_le (Nat.le_add_right _ _)).trans hnext
    · exact ih ⟨hrest, fun hv x hx => hafter hv x (List.mem_cons_of_mem _ hx)⟩

end

/-- Settles O19: the induction over the events, from the filter state given. -/
theorem acceptedTimesAreSpacedOut : Obligations.AcceptedTimesAreSpacedOut := by
  intro c b ts hordered hafter
  obtain ⟨hapart, hlast⟩ := acceptedTimes_spacedOut ⟨hordered, hafter⟩
  exact ⟨hapart, hlast⟩

end Sys2Proof.Machine
end

section
/-! R6 to R10: the admissible builds. -/

namespace Sys2Proof

/-- The test of R6 finds the powers of two from 2 on. -/
theorem Params.ringOk_iff {c : Params} : c.ringOk = true ↔ ∃ a, 1 ≤ a ∧ c.ringN = 2 ^ a := by
  rw [Params.ringOk, Bool.and_eq_true, decide_eq_true_eq, decide_eq_true_eq]
  constructor
  · rintro ⟨htwo, hpow⟩
    refine ⟨c.ptrW, Nat.pos_of_ne_zero fun h0 => ?_, hpow.symm⟩
    rw [h0] at hpow
    omega
  · rintro ⟨a, ha, hring⟩
    rw [Params.ptrW, hring, Nat.log2_two_pow]
    exact ⟨Nat.pow_le_pow_right Nat.two_pos ha, rfl⟩

/-- R7 with the subtraction, which does not fall below 0 for a timestamp of at least one bit. -/
theorem Params.deadbandOk_iff {c : Params} (h : 1 ≤ c.tsW) :
    c.deadbandOk = true ↔ c.deadbandUs ≤ 2 ^ c.tsW - 2 := by
  have hpow : 2 ^ 1 ≤ 2 ^ c.tsW := Nat.pow_le_pow_right Nat.two_pos h
  rw [Params.deadbandOk, decide_eq_true_eq]
  omega

/-- Settles O9: `Params.valid` tests the five ranges. -/
theorem admissibleBuilds : Obligations.AdmissibleBuilds := by
  intro c
  simp only [Params.valid, Params.tsWOk, Params.ticksOk, Params.dropWOk, Bool.and_eq_true,
    decide_eq_true_eq, Params.ringOk_iff]
  constructor
  · rintro ⟨⟨⟨⟨hring, hdeadband⟩, htsW⟩, hticks⟩, hdropW⟩
    exact ⟨hring, (Params.deadbandOk_iff htsW.1).mp hdeadband, htsW, hticks, hdropW⟩
  · rintro ⟨hring, hdeadband, htsW, hticks, hdropW⟩
    exact ⟨⟨⟨⟨hring, (Params.deadbandOk_iff htsW.1).mpr hdeadband⟩, htsW⟩, hticks⟩, hdropW⟩

end Sys2Proof
end

section
/-! R55 to R58, R107, R110: which operation a step performs, and that it completes. -/

namespace Sys2Proof.Machine

/-- Settles O2: one direction per operation and its ignored bits, the other per select vector. -/
theorem decodeAndEncodeAgree : Obligations.DecodeAndEncodeAgree :=
  ⟨decode_encode, fun _ _ h => (encode_of_decode h).symm⟩

/-- Settles O3: each vector is the encoding of its operation, bit for bit. -/
theorem writtenOutVectorsDecode : Obligations.WrittenOutVectorsDecode :=
  ⟨decode_encode (.capArm false true false), decode_encode (.capQuiet false true),
    decode_encode (.capReject true), decode_encode .capPush, decode_encode .capDrop,
    decode_encode (.drnEmpty true), decode_encode .drnHold, decode_encode .drnPop,
    decode_encode .reset⟩

/-! ### The operations a block can select (R58) -/

theorem decodeCsel_armed_wf : ∀ e p f : Bool, (decodeCsel (bits4 true e p f)).wf = true := by decide

theorem decodeDsel_wf (v : BitVec 2) : (decodeDsel v).wf = true := by
  unfold decodeDsel
  split <;> rfl

theorem decodeCsel_csel_wf {c : Params} (r : Regs c) : (decodeCsel (csel r)).wf = true := by
  cases harmed : armed r with
  | true =>
    rw [csel, harmed]
    exact decodeCsel_armed_wf _ _ _
  | false =>
    have hbit : (csel r).getLsbD 3 = false := (bits4_getLsbD_three _ _ _ _).trans harmed
    rw [decodeCsel_of_not_armed hbit, csel_bit_two_of_bit_three hbit]
    rfl

theorem wf_of_selects {s : State} {i : Instr} (hi : decode s.selectVec = .ok i) :
    i.wf = true := by
  unfold State.selectVec at hi
  split at hi
  · rw [← Except.ok.inj hi]
    exact decodeCsel_csel_wf s.regs
  · rw [← Except.ok.inj hi]
    exact decodeDsel_wf _
  · rw [← Except.ok.inj hi]
    rfl

/-- Settles O4: no block forms a vector outside `Instr.wf`, and `step` only dispatches. -/
theorem stepRunsTheDecodedOperation : Obligations.StepRunsTheDecodedOperation :=
  fun _ _ hi => ⟨wf_of_selects hi, fun hrst => step_eq_exec hrst hi⟩

/-! ### By the status signals (R56, R57) -/

theorem step_of_selects {s : State} {i : Instr} (hrst : s.drive.rst = .released ∨ s.drive.rst = .both)
    (hv : s.selectVec = encode i) : step s = exec i s :=
  step_eq_exec hrst (by rw [hv, decode_encode])

section
variable {s : State}

/-- At a capture edge the operation with these select bits is performed. -/
theorem step_of_status_capture (hrst : s.drive.rst = .released) (hclock : s.drive.clock = .capture)
    {i : Instr} (h : encode i = .csel (bits4 (armed s.regs) (edge s.regs) (pass s.regs) (full s.regs))) :
    step s = exec i s :=
  step_of_selects (.inl hrst) ((selectVec_of_capture hrst hclock).trans h.symm)

/-- At a drain edge the operation with these select bits is performed. -/
theorem step_of_status_drain (hrst : s.drive.rst = .released) (hclock : s.drive.clock = .drain)
    {i : Instr} (h : encode i = .dsel (bits2 (outValid s.regs) s.drive.outReady)) :
    step s = exec i s :=
  step_of_selects (.inl hrst) ((selectVec_of_drain hrst hclock).trans h.symm)

end

/-- Settles O5: in each case the status signals are the bits of the operation's encoding. -/
theorem edgeSelectsByStatusSignals : Obligations.EdgeSelectsByStatusSignals := by
  intro s hrst
  refine ⟨fun hclock => ⟨fun ha => ?_, fun ha he => ?_, fun ha he hp => ?_, fun ha he hp hf => ?_,
    fun ha he hp hf => ?_⟩, fun hclock => ⟨fun hv => ?_, fun hv hr => ?_, fun hv hr => ?_⟩⟩
  · exact step_of_status_capture hrst hclock (by rw [ha]; rfl)
  · exact step_of_status_capture hrst hclock (by rw [ha, he]; rfl)
  · exact step_of_status_capture hrst hclock (by rw [ha, he, hp]; rfl)
  · exact step_of_status_capture hrst hclock (by rw [ha, he, hp, hf]; rfl)
  · exact step_of_status_capture hrst hclock (by rw [ha, he, hp, hf]; rfl)
  · exact step_of_status_drain hrst hclock (by rw [hv]; rfl)
  · exact step_of_status_drain hrst hclock (by rw [hv, hr]; rfl)
  · exact step_of_status_drain hrst hclock (by rw [hv, hr]; rfl)

/-- One step further in ring order is another slot, in a ring of more than one (R71). -/
theorem inc_ne_self {w : Nat} (hw : 0 < w) (p : BitVec w) : inc p ≠ p := fun h => by
  have hdist : ahead p (inc p) = 1 % 2 ^ w := by rw [ahead_inc_mod, ahead_self]
  have hpow : 1 < 2 ^ w := Nat.one_lt_two_pow hw.ne'
  rw [h, ahead_self, Nat.mod_eq_of_lt hpow] at hdist
  cases hdist

/-- Before the first acceptance the ring is not full (R92, R75). -/
theorem full_of_fresh {c : Params} {r : Regs c} (hvalid : c.valid = true) (h : Fresh r)
    (hv : r.lastValid = false) : full r = false := by
  obtain ⟨-, hwptr, -, -, -, -, hrg⟩ := h hv
  have hview : readView r = 0 := by
    rw [readView, hrg]
    exact gray2bin_zero _
  rw [full, hwptr, hview]
  exact beq_eq_false_iff_ne.mpr (inc_ne_self (Params.ptrW_pos hvalid) _)

/-- Settles O20: nothing accepted yet makes `PASS = 1` and leaves the ring empty. -/
theorem firstEdgeIsPushed : Obligations.FirstEdgeIsPushed := by
  intro s ⟨hvalid, hinv⟩ hv hrst hclock harmed hne
  obtain ⟨-, -, -, -, hfresh, -⟩ := hinv
  have hedge : edge s.regs = true := by
    rw [edge, harmed, Bool.true_and]
    exact bne_iff_ne.mpr hne
  have hpass : pass s.regs = true := passAt_iff.mpr (.inl hv)
  obtain ⟨hcapture, -⟩ := edgeSelectsByStatusSignals s hrst
  obtain ⟨-, -, -, hpush, -⟩ := hcapture hclock
  exact hpush harmed hedge hpass (full_of_fresh hvalid hfresh hv)

/-! ### Completion and refusal -/

/-- In an admissible build an operation leaves the registers it computes. -/
theorem exec_of_valid {s : State} (hvalid : s.cfg.valid = true) (i : Instr) :
    exec i s = .next (s.after (Instr.effect i s.drive s.regs)) :=
  (exec_eq_operate i s).trans (operate_next.mpr ⟨hvalid, rfl⟩)

/-- Settles O7: the select vector names an operation, and every operation completes. -/
theorem everyStepCompletes : Obligations.EveryStepCompletes := by
  intro s hvalid hrst
  obtain ⟨i, hi⟩ := decode_selectVec s
  exact ⟨_, (step_eq_exec hrst hi).trans (exec_of_valid hvalid i)⟩

theorem exec_of_not_valid {s : State} (hvalid : s.cfg.valid = false) (i : Instr) :
    exec i s = .refused .unbuildable := by
  rw [exec_eq_operate, operate, hvalid, if_neg Bool.false_ne_true]

theorem step_of_partial_reset {s : State}
    (h : s.drive.rst = .captureOnly ∨ s.drive.rst = .drainOnly) : step s = .refused .partialReset := by
  unfold step
  obtain h | h := h <;> rw [h]

/-- Settles O8: the two refusals, and the type of faults is empty. -/
theorem refusalsAreTheSpecs : Obligations.RefusalsAreTheSpecs :=
  ⟨fun _ i hvalid => exec_of_not_valid hvalid i, fun _ => step_of_partial_reset, fun _ f => nomatch f⟩

/-! ### The record of a step (R65) -/

/-- Settles O16: `DSEL = 11` is DRN_POP's vector, selected with a frame shown. -/
theorem oneRecordPerPoppedFrame : Obligations.OneRecordPerPoppedFrame := by
  intro s
  refine ⟨fun hsel => ?_, fun hsel => ?_⟩
  · have hframe : outFrame s.regs = some (memRead s.regs s.regs.rptr) :=
      if_pos (outValid_of_selects_pop hsel)
    have hpopped : s.popped = some (memRead s.regs s.regs.rptr) := (if_pos hsel).trans hframe
    exact ⟨_, hframe, congrArg (Option.map (record (tsW := s.cfg.tsW))) hpopped⟩
  · have hpopped : s.popped = none := if_neg hsel
    exact congrArg (Option.map (record (tsW := s.cfg.tsW))) hpopped

end Sys2Proof.Machine
end

section
/-! The model's choice of what stands for a fetch (log entries 8 and 9): the registers that
`State.selecting` sets have the select bits they are set to. -/

namespace Sys2Proof.Machine

section
variable {c : Params} (r : Regs c)

theorem pass_setPass (b : Bool) : pass (setPass b r) = b := by
  cases b with
  | true => exact passAt_iff.mpr (.inl rfl)
  | false =>
    refine Bool.eq_false_iff.mpr fun hpass => ?_
    have hfar := (passAt_of_le (lastT := r.ts) (t := r.ts) le_rfl).mp hpass
    omega

theorem full_setFull (hptr : 0 < c.ptrW) (b : Bool) : full (setFull b r) = b := by
  have hview : readView (setFull b r) = if b then inc r.wptr else r.wptr := gray2bin_bin2gray _
  rw [full, hview]
  cases b with
  | true => exact beq_self_eq_true (inc r.wptr)
  | false => exact beq_eq_false_iff_ne.mpr (inc_ne_self hptr r.wptr)

theorem outValid_setOutValid (hptr : 0 < c.ptrW) (b : Bool) : outValid (setOutValid b r) = b := by
  have hview : writeView (setOutValid b r) = if b then inc r.rptr else r.rptr := gray2bin_bin2gray _
  rw [outValid, empty, hview]
  cases b with
  | true =>
    rw [Bool.not_eq_true']
    exact beq_eq_false_iff_ne.mpr (inc_ne_self hptr r.rptr).symm
  | false =>
    rw [Bool.not_eq_false']
    exact beq_self_eq_true r.rptr

theorem edge_setEdge (b : Bool) : edge (setEdge b r) = b := by
  have hedge : edge (setEdge b r) = (r.inS2 != if b then ~~~r.inS2 else r.inS2) := Bool.true_and _
  rw [hedge]
  cases b with
  | true =>
    refine bne_iff_ne.mpr fun h => ?_
    have hbit := congrArg (BitVec.getLsbD · 0) h
    simp at hbit
  | false => exact bne_self_eq_false _

/-- `PASS` and `FULL` are set without a change to the other two bits. -/
theorem csel_setFull_setPass (hptr : 0 < c.ptrW) (p f : Bool) :
    csel (setFull f (setPass p r)) = bits4 (armed r) (edge r) p f := by
  have hpass : pass (setFull f (setPass p r)) = p := pass_setPass r p
  have harmed : armed (setFull f (setPass p r)) = armed r := by cases p <;> rfl
  have hedge : edge (setFull f (setPass p r)) = edge r := by cases p <;> rfl
  rw [csel, full_setFull _ hptr, hpass, harmed, hedge]

theorem csel_setEdge (hptr : 0 < c.ptrW) (e p f : Bool) :
    csel (setFull f (setPass p (setEdge e r))) = bits4 true e p f := by
  rw [csel_setFull_setPass _ hptr, edge_setEdge]
  rfl

end

/-- The select vector formed next is the operation's, if a block can form it. -/
theorem selectVec_selecting {s : State} (hptr : 0 < s.cfg.ptrW) {i : Instr} (hwf : i.wf = true) :
    (s.selecting i).selectVec = encode i := by
  have hcapture : i.isCapture = true →
      (s.selecting i).selectVec = .csel (csel (selectingRegs i s.regs)) := fun h => by
    cases i with
    | capArm | capQuiet | capReject | capPush | capDrop => rfl
    | drnEmpty | drnHold | drnPop | reset => cases h
  cases i with
  | capArm e p f =>
    obtain rfl : e = false := by simpa [Instr.wf] using hwf
    rw [hcapture rfl, selectingRegs, csel_setFull_setPass _ hptr]
    rfl
  | capQuiet | capReject | capPush | capDrop =>
    rw [hcapture rfl, selectingRegs, csel_setEdge _ hptr]
    rfl
  | drnEmpty r => exact congrArg (fun v => SelectVec.dsel (bits2 v r)) (outValid_setOutValid _ hptr _)
  | drnHold => exact congrArg (fun v => SelectVec.dsel (bits2 v false)) (outValid_setOutValid _ hptr _)
  | drnPop => exact congrArg (fun v => SelectVec.dsel (bits2 v true)) (outValid_setOutValid _ hptr _)
  | reset => rfl

theorem selecting_rst (s : State) (i : Instr) :
    (s.selecting i).drive.rst = .released ∨ (s.selecting i).drive.rst = .both := by
  cases i with
  | capArm | capQuiet | capReject | capPush | capDrop | drnEmpty | drnHold | drnPop => exact .inl rfl
  | reset => exact .inr rfl

/-- Settles O11: the state the word makes has the operation's select vector. -/
theorem withFetchWordSelectsTheOperation : Obligations.WithFetchWordSelectsTheOperation := by
  intro s nbits w i hvalid hdecode hwf
  have hstate : s.withFetchWord nbits w = s.selecting i := by rw [State.withFetchWord, hdecode]
  rw [hstate]
  exact step_of_selects (selecting_rst s i) (selectVec_selecting (Params.ptrW_pos hvalid) hwf)

end Sys2Proof.Machine
end

section
/-! The operations one by one (R89 to R93, R100 to R102, R118): each completes with its effect on the
registers, the common part being that of its clock. -/

namespace Sys2Proof.Machine

/-! ### The capture operations -/

/-- Settles O21: the three operations are the common part (R89 to R91). -/
theorem captureWithoutAcceptance : Obligations.CaptureWithoutAcceptance := by
  intro s i hvalid hi
  have hregs : Instr.effect i s.drive s.regs = captureCommon s.drive s.regs := by
    obtain ⟨e, p, f, rfl⟩ | ⟨p, f, rfl⟩ | ⟨f, rfl⟩ := hi <;> rfl
  refine ⟨_, exec_of_valid hvalid i, ?_⟩
  rw [hregs]
  exact ⟨captureCommon_effect (Params.ticks_of_valid hvalid) _ _, ⟨rfl, rfl⟩,
    ⟨fun _ => rfl, rfl, rfl⟩, ⟨rfl, rfl⟩, rfl⟩

/-- A pointer's next value, counted modulo `RING_N` (R71). -/
theorem inc_toNat_ring {c : Params} (hvalid : c.valid = true) (p : BitVec c.ptrW) :
    (inc p).toNat = (p.toNat + 1) % c.ringN := by
  obtain ⟨-, hpow⟩ := Params.ring_of_valid hvalid
  rw [inc_toNat, hpow]

/-- Settles O22: beside the common part and the deadband update, the push of R78. -/
theorem capPushEnqueues : Obligations.CapPushEnqueues := by
  intro s hvalid
  obtain ⟨hlastT, hlastValid⟩ :=
    effect_deadband_of_accepts (i := .capPush) rfl s.drive s.regs
  refine ⟨_, exec_of_valid hvalid .capPush, effect_captureCommonEffect hvalid rfl _ _, hlastT,
    hlastValid, push_sameDrops _ (deadbandUpdate s.regs), effect_rptr_of_isCapture rfl _ _,
    fun hf => ?_, fun hf => ?_⟩
  · obtain ⟨-, hwptr, hread⟩ := push_ring (r := deadbandUpdate s.regs) hf
      (encodeFrame s.regs.ts (snapshot s.regs))
    have hwptr' : (Instr.effect .capPush s.drive s.regs).wptr = inc s.regs.wptr := hwptr
    have hwg : (Instr.effect .capPush s.drive s.regs).wg =
        s.regs.wg.write (bin2gray (inc s.regs.wptr)) :=
      push_wg_of_not_full (r := deadbandUpdate s.regs) hf _
    rw [hwptr', hwg]
    exact ⟨inc_toNat_ring hvalid _, Crossing.write_changed _ _,
      ⟨_, (hread _).trans (if_pos rfl), encodeFrame_toNat _ _⟩,
      fun a ha => (hread a).trans (if_neg ha)⟩
  · have hsame := push_of_full (r := deadbandUpdate s.regs) hf
      (encodeFrame s.regs.ts (snapshot s.regs))
    have hregs : Instr.effect .capPush s.drive s.regs =
        captureCommon s.drive (deadbandUpdate s.regs) := congrArg (captureCommon s.drive) hsame
    rw [hregs]
    exact ⟨fun _ => rfl, rfl, rfl⟩

/-- Settles O23: beside the common part and the deadband update, the count of R93. -/
theorem capDropCounts : Obligations.CapDropCounts := by
  intro s hvalid
  obtain ⟨hdrop, hdg⟩ := countDrop_spec (deadbandUpdate s.regs)
  exact ⟨_, exec_of_valid hvalid .capDrop, effect_captureCommonEffect hvalid rfl _ _, rfl, rfl,
    ⟨fun _ => rfl, rfl, rfl⟩, rfl, hdrop, hdg⟩

/-! ### The drain operations -/

/-- The common part of a drain step is the two samples (R99). -/
theorem effect_drainCommonEffect {c : Params} {i : Instr} (h : i.isDrain = true) (d : Drive)
    (r : Regs c) : DrainCommonEffect d r (Instr.effect i d r) := by
  unfold DrainCommonEffect
  rw [effect_wg_of_isDrain h, effect_dg_of_isDrain h]
  exact ⟨Crossing.sample_sampled _ _, Crossing.sample_sampled _ _⟩

/-- Settles O24: the two operations are the common part (R100, R101). -/
theorem drainWithoutPop : Obligations.DrainWithoutPop := by
  intro s i hvalid hi
  have hregs : Instr.effect i s.drive s.regs = drainCommon s.drive s.regs := by
    obtain ⟨r, rfl⟩ | rfl := hi <;> rfl
  refine ⟨_, exec_of_valid hvalid i, ?_⟩
  rw [hregs]
  exact ⟨⟨Crossing.sample_sampled _ _, Crossing.sample_sampled _ _⟩, ⟨rfl, rfl⟩,
    ⟨rfl, rfl, rfl, rfl, rfl, rfl⟩, ⟨rfl, rfl⟩, fun _ => rfl, rfl, rfl⟩

/-- Settles O25: beside the common part, the pop of R79. -/
theorem drnPopDequeues : Obligations.DrnPopDequeues := by
  intro s hvalid
  obtain ⟨hwptr, hslots⟩ := pop_wptr_slots s.regs
  refine ⟨_, exec_of_valid hvalid .drnPop, effect_drainCommonEffect rfl _ _,
    pop_sameSampler s.regs, pop_sameDeadband s.regs, fun a => congrArg (Memory.read · a) hslots,
    hwptr, (pop_sameDrops s.regs).1, fun he => ?_, fun he => ?_⟩
  · obtain ⟨hrptr, -⟩ := pop_ring he
    have hrptr' : (Instr.effect .drnPop s.drive s.regs).rptr = inc s.regs.rptr := hrptr
    have hrg : (Instr.effect .drnPop s.drive s.regs).rg =
        s.regs.rg.write (bin2gray (inc s.regs.rptr)) := pop_rg_of_not_empty he
    rw [hrptr', hrg]
    exact ⟨inc_toNat_ring hvalid _, Crossing.write_changed _ _⟩
  · have hregs : Instr.effect .drnPop s.drive s.regs = drainCommon s.drive s.regs :=
      congrArg (drainCommon s.drive) (pop_of_empty he)
    rw [hregs]
    exact ⟨rfl, rfl⟩

/-! ### RESET -/

/-- What RESET leaves (R118). -/
theorem eq_resetRegs_of_exec {s : State} {r' : Regs s.cfg} (h : exec .reset s = .next (s.after r')) :
    r' = resetRegs s.drive s.regs := by
  obtain ⟨-, he⟩ := operate_next.mp h
  exact State.after_injective he

/-- Settles O26: each field of R118's register file. -/
theorem resetWritesEveryRegister : Obligations.ResetWritesEveryRegister := fun _ hvalid =>
  ⟨_, exec_of_valid hvalid .reset, rfl, rfl, rfl, rfl, rfl, rfl, rfl, rfl, rfl, rfl, rfl, rfl, rfl,
    rfl, rfl, rfl, rfl, rfl, rfl, rfl, rfl, rfl, rfl, rfl, rfl, rfl, rfl⟩

/-- Settles O27: the block is unarmed with nothing accepted, and all pointers and views are equal. -/
theorem statusAfterReset : Obligations.StatusAfterReset := by
  intro s r' hvalid hexec
  rw [eq_resetRegs_of_exec hexec]
  have hfresh : Fresh (resetRegs s.drive s.regs) := fun _ => ⟨rfl, rfl, rfl, rfl, rfl, rfl, rfl⟩
  have hempty : empty (resetRegs s.drive s.regs) = true := empty_of_reset rfl rfl
  have hv : outValid (resetRegs s.drive s.regs) = false := congrArg not hempty
  exact ⟨rfl, rfl, rfl, full_of_fresh hvalid hfresh rfl, hv, outFrame_of_not_outValid hv,
    gray2bin_zero _, contents_of_occupancy_zero (ahead_self _)⟩

/-- Settles O28: the second RESET writes what the first left, but for its own draws. -/
theorem repeatedResetOnlyRedraws : Obligations.RepeatedResetOnlyRedraws := by
  intro s r' r'' hfirst hsecond
  rw [eq_resetRegs_of_exec hsecond, eq_resetRegs_of_exec hfirst]
  rfl

end Sys2Proof.Machine
end
